-- ==== Sys2Proof/Word.lean ====
section
/-! DEFINITION. The words of the machine: bytes, 32-bit words, the four-word register group, the 4-byte
column and the 16-byte block (00_scope.md R13, R14; 10_state.md R22). Conversions between them are in
Machine/Bytes.lean. -/

namespace Sys2Proof

/-- An 8-bit unsigned value (00_scope.md R13). -/
abbrev Byte := BitVec 8

/-- A 32-bit unsigned value (00_scope.md R13). -/
abbrev Word := BitVec 32

/-- The four registers NAME0..NAME3 of a block-sized register group (10_state.md R22). -/
@[ext] structure Quad where
  w0 : Word
  w1 : Word
  w2 : Word
  w3 : Word
  deriving DecidableEq, Repr, Inhabited

/-- Four bytes `(b0, b1, b2, b3)`: a column of a state (00_scope.md R14) or a word of the key schedule
(42_key_schedule.md R161). -/
@[ext] structure Col where
  b0 : Byte
  b1 : Byte
  b2 : Byte
  b3 : Byte
  deriving DecidableEq, Repr, Inhabited

/-- A state or block: 16 bytes as a column-major 4×4 matrix, byte `i` in row `i % 4` of column `i / 4`
(00_scope.md R14). -/
@[ext] structure Block where
  c0 : Col
  c1 : Col
  c2 : Col
  c3 : Col
  deriving DecidableEq, Repr, Inhabited

end Sys2Proof
end

