-- ==== Sys2Proof/Syntax.lean ====
section
/-! DEFINITION. The commands of the core, one constructor per row of spec/opcode_table.json
(30_encoding.md R103). Only ADD_ROUND_KEY has an operand in its word; every other operand is implicit
(30_encoding.md R101). -/

namespace Sys2Proof

/-- A command of the core (30_encoding.md R103). -/
inductive Instr where
  /-- NOP (45_control.md R250). -/
  | nop
  /-- EXPAND_KEY (42_key_schedule.md R170). -/
  | expandKey
  /-- ENC_STATE (43_round_engine.md R207). -/
  | encState
  /-- DEC_STATE (43_round_engine.md R208). -/
  | decState
  /-- SUB_BYTES (43_round_engine.md R200). -/
  | subBytes
  /-- INV_SUB_BYTES (43_round_engine.md R201). -/
  | invSubBytes
  /-- SHIFT_ROWS (43_round_engine.md R202). -/
  | shiftRows
  /-- INV_SHIFT_ROWS (43_round_engine.md R203). -/
  | invShiftRows
  /-- MIX_COLUMNS (43_round_engine.md R204). -/
  | mixColumns
  /-- INV_MIX_COLUMNS (43_round_engine.md R205). -/
  | invMixColumns
  /-- ADD_ROUND_KEY with round index RND (43_round_engine.md R206). -/
  | addRoundKey (rnd : Nat)
  /-- GF_MUL (40_gf_arith.md R140). -/
  | gfMul
  /-- MSG_START (44_mode_controller.md R222). -/
  | msgStart
  /-- MSG_BLOCK (44_mode_controller.md R230). -/
  | msgBlock
  deriving DecidableEq, Repr

end Sys2Proof
end

