-- ==== Sys2Proof/WellFormed.lean ====
section
/-! DEFINITION. When a command has an encoding: its round index fits the four bits of RND
(30_encoding.md R100, R101). -/

namespace Sys2Proof

/-- The command can be written as a CMD word: RND is 0..15 (30_encoding.md R101). Whether the index is one the
current schedule has is checked at execution, not here (30_encoding.md R106). -/
def Instr.wf : Instr → Bool
  | .nop => true
  | .expandKey => true
  | .encState => true
  | .decState => true
  | .subBytes => true
  | .invSubBytes => true
  | .shiftRows => true
  | .invShiftRows => true
  | .mixColumns => true
  | .invMixColumns => true
  | .addRoundKey rnd => decide (rnd < 16)
  | .gfMul => true
  | .msgStart => true
  | .msgBlock => true

end Sys2Proof
end

