-- ==== Sys2Proof/Decode.lean ====
section
/-! DEFINITION. The command word: its fields, its decoder (30_encoding.md R100, R103, R106), the opcode map as
masks and patterns (30_encoding.md R104), and the encoder written from the same map. -/

namespace Sys2Proof

/-- OP, bits 7:0 (30_encoding.md R100). -/
def opField (w : Word) : Byte := w.extractLsb' 0 8

/-- RND, bits 11:8 (30_encoding.md R100). -/
def rndField (w : Word) : BitVec 4 := w.extractLsb' 8 4

/-- RSVD, bits 31:12 (30_encoding.md R100). -/
def rsvdField (w : Word) : BitVec 20 := w.extractLsb' 12 20

/-- Why a word spells no command (30_encoding.md R105, R106). -/
inductive DecodeError where
  /-- Bits 31:12 are not 0. -/
  | reservedBits
  /-- RND is not 0 and OP is not that of ADD_ROUND_KEY. -/
  | reservedRnd
  /-- OP is reserved. -/
  | reservedOpcode
  deriving DecidableEq, Repr

/-- The command of an opcode of the opcode map, its operand field read as `rnd` (30_encoding.md R103). -/
def ofOpcode (op : Nat) (rnd : Nat) : Option Instr :=
  match op with
  | 0x00 => some .nop
  | 0x01 => some .expandKey
  | 0x02 => some .encState
  | 0x03 => some .decState
  | 0x04 => some .subBytes
  | 0x05 => some .invSubBytes
  | 0x06 => some .shiftRows
  | 0x07 => some .invShiftRows
  | 0x08 => some .mixColumns
  | 0x09 => some .invMixColumns
  | 0x0A => some (.addRoundKey rnd)
  | 0x0B => some .gfMul
  | 0x10 => some .msgStart
  | 0x11 => some .msgBlock
  | _ => none

/-- `decode(v)` in the order of 30_encoding.md R106; an error is the ILLEGAL pseudo-command of 45_control.md
R251. -/
def decode (w : Word) : Except DecodeError Instr :=
  if rsvdField w ≠ 0 then .error .reservedBits
  else if opField w = 0x0A then .ok (.addRoundKey (rndField w).toNat)
  else if rndField w ≠ 0 then .error .reservedRnd
  else
    match ofOpcode (opField w).toNat 0 with
    | some i => .ok i
    | none => .error .reservedOpcode

/-- The opcode of a command (30_encoding.md R103). -/
def Instr.opcode : Instr → Byte
  | .nop => 0x00
  | .expandKey => 0x01
  | .encState => 0x02
  | .decState => 0x03
  | .subBytes => 0x04
  | .invSubBytes => 0x05
  | .shiftRows => 0x06
  | .invShiftRows => 0x07
  | .mixColumns => 0x08
  | .invMixColumns => 0x09
  | .addRoundKey _ => 0x0A
  | .gfMul => 0x0B
  | .msgStart => 0x10
  | .msgBlock => 0x11

/-- The RND operand of a command: the round index of ADD_ROUND_KEY, 0 for every other (30_encoding.md R100). -/
def Instr.rnd : Instr → Nat
  | .nop => 0
  | .expandKey => 0
  | .encState => 0
  | .decState => 0
  | .subBytes => 0
  | .invSubBytes => 0
  | .shiftRows => 0
  | .invShiftRows => 0
  | .mixColumns => 0
  | .invMixColumns => 0
  | .addRoundKey rnd => rnd
  | .gfMul => 0
  | .msgStart => 0
  | .msgBlock => 0

/-- The CMD word of a well-formed command (30_encoding.md R104). -/
def encode (i : Instr) : Word :=
  (0 : BitVec 20) ++ BitVec.ofNat 4 i.rnd ++ i.opcode

/-- A row of the opcode map as bit patterns (30_encoding.md R104). -/
structure OpRow where
  mask : Word
  pattern : Word
  deriving DecidableEq, Repr

/-- The row of an opcode whose whole word is fixed (30_encoding.md R104). -/
def OpRow.fixed (op : Word) : OpRow := { mask := 0xFFFFFFFF, pattern := op }

/-- The masks and patterns of 30_encoding.md R104, in the order of R103. -/
def opRows : List OpRow :=
  [ .fixed 0x00, .fixed 0x01, .fixed 0x02, .fixed 0x03, .fixed 0x04, .fixed 0x05, .fixed 0x06, .fixed 0x07,
    .fixed 0x08, .fixed 0x09, { mask := 0xFFFFF0FF, pattern := 0x0000000A }, .fixed 0x0B, .fixed 0x10,
    .fixed 0x11 ]

/-- The word has the row's fixed bits. -/
def OpRow.accepts (r : OpRow) (w : Word) : Bool := w &&& r.mask = r.pattern

/-- The CMD word of an instruction word given as a number, bit 0 least significant, of which the low `nbits`
count. A command has one length, 32 bits (30_encoding.md R100). -/
def tableWord (nbits w : Nat) : Word := BitVec.ofNat 32 (w % 2 ^ nbits)

/-- The command the decoder reads from the word `w` of `nbits` bits. -/
def decodeTableWord (nbits w : Nat) : Option Instr :=
  match decode (tableWord nbits w) with
  | .ok i => some i
  | .error _ => none

end Sys2Proof
end

