-- ==== Sys2Proof/Config.lean ====
section
/-! DEFINITION. What one instance of the core fixes, and the values the spec leaves open: constants without a
body, so that nothing can be proved of a value of theirs (00_scope.md R12; 93_implementation_defined.md U1, U2,
U6, U7, U8, U10). The free values are applied to State's counter of draws, each draw giving a fresh one. -/

namespace Sys2Proof.Config

/-- `CMD_LATENCY(op, state)`, in host turns between a command's issue and its completion: finite and otherwise
unconstrained (00_scope.md R12; 70_reset_and_hazards.md R296). The second argument is the draw at issue; it
differs at every issue, which admits every dependence on the state. Log entry 2. -/
opaque cmdLatency : Byte → Nat → Nat

/-- What a register read returns while BUSY = 1 (70_reset_and_hazards.md R298). Log entry 4. -/
opaque freeWord : Nat → Word

/-- What the working block W holds between commands (10_state.md R48, R49; U10). Log entry 7. -/
opaque freeWork : Nat → Block

/-- `TRACE_PRESENT`: whether this instance has the trace port (00_scope.md R12; U7). Log entry 9. -/
opaque tracePresent : Bool

/-- Which 512-byte slot of the platform's address space the register window sits in. -/
opaque coreSlot : Nat

/-- `CORE_BASE`, the platform address of the register window: any multiple of 512 (00_scope.md R12;
20_memory.md R70, R80; U8). Log entry 10. -/
def coreBase : Nat := 512 * coreSlot

end Sys2Proof.Config
end

