-- ==== Sys2Proof/Machine/State.lean ====
section
/-! DEFINITION. The state of the machine as plain data (10_state.md R21..R49), the events of the trace port, the
host's actions, the ways a step can stop, and the state after reset. -/

namespace Sys2Proof.Machine

/-- Direction of a message (10_state.md R24, CTRL.DIR). -/
inductive Dir where
  /-- DIR = 0. -/
  | encrypt
  /-- DIR = 1. -/
  | decrypt
  deriving DecidableEq, Repr

/-- Chaining mode of a message (10_state.md R24, CTRL.MODE). -/
inductive Mode where
  /-- MODE = 0. -/
  | ecb
  /-- MODE = 1. -/
  | cbc
  deriving DecidableEq, Repr

/-- The outcome a command leaves in STATUS.ERR (60_exceptions.md R260). -/
inductive ErrCode where
  /-- Success. -/
  | ok
  /-- MSG_LEN.LEN is 0 or no multiple of 16. -/
  | invalidFormat
  /-- KEY_LEN.LEN is not 16, 24 or 32. -/
  | invalidKeySize
  /-- No round keys have been expanded. -/
  | noKeySchedule
  /-- The word spells no command. -/
  | illegalCommand
  /-- RND is above NR. -/
  | badRound
  /-- No message is open. -/
  | noMessage
  deriving DecidableEq, Repr

/-- Kinds of trace event (60_exceptions.md R281). -/
inductive TraceKind where
  | ksRot
  | ksSub
  | ksRcon
  | ksWord
  | blkArk
  | blkSb
  | blkSr
  | blkMc
  | blkIsr
  | blkIsb
  | blkImc
  | modeXor
  deriving DecidableEq, Repr

/-- A trace event `(kind, idx, data)` (60_exceptions.md R281). -/
@[ext] structure TraceEvent where
  kind : TraceKind
  idx : Byte
  data : BitVec 128
  deriving DecidableEq, Repr

/-- The registers of the register map, by name (10_state.md R22). -/
inductive Reg where
  | ctrl
  | cmd
  | status
  | keyLen
  | msgLen
  | blocksLeft
  | gfOpnd
  | gfRes
  | key (j : Fin 8)
  | iv (j : Fin 4)
  | din (j : Fin 4)
  | dout (j : Fin 4)
  | state (j : Fin 4)
  | cv (j : Fin 4)
  | rk (i : Fin 60)
  deriving DecidableEq, Repr

/-- Size of a bus access (20_memory.md R71). -/
inductive AccessSize where
  | byte
  | half
  | word
  deriving DecidableEq, Repr

/-- One turn of the host (00_scope.md R8; 30_encoding.md R110, R111; 70_reset_and_hazards.md R290). -/
inductive HostAction where
  /-- The host makes no access. -/
  | idle
  /-- One bus read whose value is recorded (RD). -/
  | read (size : AccessSize) (off : BitVec 9)
  /-- One bus write (WR, CMD). -/
  | write (size : AccessSize) (off : BitVec 9) (v : Word)
  /-- POLL: read STATUS, and again on the next turn as long as BUSY reads 1. Log entry 14. -/
  | poll
  /-- The level of `rst_n` is driven: low (`false`) resets, high (`true`) releases. -/
  | driveRst (high : Bool)
  deriving DecidableEq, Repr

/-- The command in progress: the issued word and the host turns left before its completion
(10_state.md R21; 70_reset_and_hazards.md R296). -/
structure Pending where
  word : Word
  wait : Nat
  deriving DecidableEq, Repr

/-- Everything the spec gives the machine (10_state.md R21, R22), and the model's own fields at the end. A register
holds its defined bits only; its reserved bits are those its read supplies as 0 (10_state.md R23). -/
@[ext]
structure State where
  /-- CTRL: bit 0 DIR, bit 1 MODE, bit 2 IV_EN (10_state.md R24). -/
  ctrl : BitVec 3
  /-- KEY_LEN.LEN (10_state.md R26). -/
  keyLen : BitVec 8
  /-- MSG_LEN.LEN (10_state.md R27). -/
  msgLen : Word
  /-- BLOCKS_LEFT.N (10_state.md R38). -/
  blocksLeft : BitVec 28
  /-- GF_OPND: A in bits 7:0, B in bits 15:8 (10_state.md R28). -/
  gfOpnd : BitVec 16
  /-- GF_RES.P (10_state.md R29). -/
  gfRes : Byte
  /-- KEY0..KEY7 (10_state.md R40). -/
  key : Vector Word 8
  /-- IV0..IV3 (10_state.md R41). -/
  iv : Quad
  /-- DIN0..DIN3 (10_state.md R44). -/
  din : Quad
  /-- DOUT0..DOUT3 (10_state.md R45). -/
  dout : Quad
  /-- STATE0..STATE3 (10_state.md R46). -/
  state : Quad
  /-- CV0..CV3 (10_state.md R47). -/
  cv : Quad
  /-- RK0..RK59 (10_state.md R42). -/
  rk : Vector Word 60
  /-- STATUS.KS_VALID (10_state.md R36). -/
  ksValid : Bool
  /-- STATUS.MSG_ACTIVE (10_state.md R36). -/
  msgActive : Bool
  /-- STATUS.DOUT_VALID (10_state.md R36). -/
  doutValid : Bool
  /-- STATUS.ERR (10_state.md R36). -/
  err : BitVec 4
  /-- STATUS.NR (10_state.md R36). -/
  nr : BitVec 4
  /-- STATUS.MSG_DIR (10_state.md R36). -/
  msgDir : Dir
  /-- STATUS.MSG_MODE (10_state.md R36). -/
  msgMode : Mode
  /-- STATUS.LAST_OP (10_state.md R36). -/
  lastOp : Byte
  /-- The command in progress; STATUS.BUSY is 1 exactly when there is one (10_state.md R21, R36). -/
  pending : Option Pending
  /-- W, the engine's working block; any value between commands (10_state.md R48). Log entry 7. -/
  work : Block
  /-- The level of the reset input `rst_n` (00_scope.md R9). -/
  rstN : Bool
  /-- The trace port's output so far, oldest first (60_exceptions.md R280, R282). -/
  trace : List TraceEvent
  /-- MODEL's own: the host's turns to come, next first. Log entry 1. -/
  inputs : List HostAction
  /-- MODEL's own: the values RD statements returned, oldest first (70_reset_and_hazards.md R306). -/
  reads : List Word
  /-- MODEL's own: how many free values have been drawn. Log entry 8. -/
  draws : Nat
  deriving DecidableEq, Repr

/-- The ways the machine stops. All are accesses of the host that the spec gives no effect on the core. -/
inductive Fault where
  /-- Raised by a bus read or write that is not an aligned 32-bit access: the bus's error response
  (20_memory.md R71). Safe: the core's state is unchanged and the model stops. -/
  | busError
  /-- Raised by a bus write while BUSY = 1 (70_reset_and_hazards.md R300). Safe: the spec leaves the effect
  open and the model stops. -/
  | writeWhileBusy
  /-- Raised by any access while `rst_n` is low (70_reset_and_hazards.md R291). Safe: the spec leaves the outcome
  open and the model stops. -/
  | accessDuringReset
  deriving DecidableEq, Repr

/-- Why an instruction has no meaning in the model. -/
inductive Refusal where
  /-- Raised by an arm of exec whose instruction has no meaning yet; no arm is one. Safe: the model stops. -/
  | notModelled (mnemonic : String)
  deriving DecidableEq, Repr

/-- The machine right after reset (10_state.md R49; 70_reset_and_hazards.md R290, R292): every register 0, no
command in progress, `rst_n` released. `work`, `trace`, `inputs`, `reads` and `draws` have values of the model's
(log entries 6, 7 and 8). -/
def State.reset : State :=
  { ctrl := 0
    keyLen := 0
    msgLen := 0
    blocksLeft := 0
    gfOpnd := 0
    gfRes := 0
    key := Vector.replicate 8 0
    iv := ⟨0, 0, 0, 0⟩
    din := ⟨0, 0, 0, 0⟩
    dout := ⟨0, 0, 0, 0⟩
    state := ⟨0, 0, 0, 0⟩
    cv := ⟨0, 0, 0, 0⟩
    rk := Vector.replicate 60 0
    ksValid := false
    msgActive := false
    doutValid := false
    err := 0
    nr := 0
    msgDir := .encrypt
    msgMode := .ecb
    lastOp := 0
    pending := none
    work := ⟨⟨0, 0, 0, 0⟩, ⟨0, 0, 0, 0⟩, ⟨0, 0, 0, 0⟩, ⟨0, 0, 0, 0⟩⟩
    rstN := true
    trace := []
    inputs := []
    reads := []
    draws := 0 }

end Sys2Proof.Machine
end

