-- ==== Sys2Proof/Machine/Bytes.lean ====
section
/-! DEFINITION. Byte order: bytes of words, blocks of register groups, and the data of a trace event
(00_scope.md R13, R14; 20_memory.md R74; 60_exceptions.md R281). Byte order is decided here and nowhere else. -/

namespace Sys2Proof.Machine

/-- `byte_k(w)`, counted from the most significant (00_scope.md R13). -/
def byteK (k : Nat) (w : Word) : Byte := w.extractLsb' (24 - 8 * k) 8

/-- `word(b0, b1, b2, b3)`, the first byte most significant (00_scope.md R13). -/
def colWord (t : Col) : Word := t.b0 ++ t.b1 ++ t.b2 ++ t.b3

/-- `bytes(w)` (10_state.md R42). -/
def colOf (w : Word) : Col := ⟨byteK 0 w, byteK 1 w, byteK 2 w, byteK 3 w⟩

/-- `Blk(NAME)` read: register word `c` holds column `c` (20_memory.md R74). -/
def blkOf (q : Quad) : Block := ⟨colOf q.w0, colOf q.w1, colOf q.w2, colOf q.w3⟩

/-- `Blk(NAME) <- s`: the words a block is written as (20_memory.md R74). -/
def quadOf (s : Block) : Quad := ⟨colWord s.c0, colWord s.c1, colWord s.c2, colWord s.c3⟩

/-- Word `j` of a register group (10_state.md R22). -/
def quadGet (q : Quad) (j : Fin 4) : Word :=
  match j with
  | 0 => q.w0
  | 1 => q.w1
  | 2 => q.w2
  | 3 => q.w3

/-- A register group with word `j` replaced (10_state.md R22). -/
def quadSet (q : Quad) (j : Fin 4) (v : Word) : Quad :=
  match j with
  | 0 => { q with w0 := v }
  | 1 => { q with w1 := v }
  | 2 => { q with w2 := v }
  | 3 => { q with w3 := v }

/-- Byte `r` of a column. -/
def colAt (t : Col) (r : Fin 4) : Byte :=
  match r with
  | 0 => t.b0
  | 1 => t.b1
  | 2 => t.b2
  | 3 => t.b3

/-- Column `c` of a state (00_scope.md R14). -/
def blockCol (s : Block) (c : Fin 4) : Col :=
  match c with
  | 0 => s.c0
  | 1 => s.c1
  | 2 => s.c2
  | 3 => s.c3

/-- `s[r,c]` (00_scope.md R14). -/
def blockAt (s : Block) (r c : Fin 4) : Byte := colAt (blockCol s c) r

/-- `⊕` on 4-byte words, byte by byte (00_scope.md R15). -/
def xorCol (a b : Col) : Col := ⟨a.b0 ^^^ b.b0, a.b1 ^^^ b.b1, a.b2 ^^^ b.b2, a.b3 ^^^ b.b3⟩

/-- `⊕` on blocks, byte by byte (00_scope.md R15). -/
def xorBlock (a b : Block) : Block :=
  ⟨xorCol a.c0 b.c0, xorCol a.c1 b.c1, xorCol a.c2 b.c2, xorCol a.c3 b.c3⟩

/-- Sixteen 0x00 bytes (44_mode_controller.md R223). -/
def zeroBlock : Block := ⟨⟨0, 0, 0, 0⟩, ⟨0, 0, 0, 0⟩, ⟨0, 0, 0, 0⟩, ⟨0, 0, 0, 0⟩⟩

/-- A block as event data: byte 0 in data[127:120] (60_exceptions.md R281). -/
def blockData (s : Block) : BitVec 128 :=
  colWord s.c0 ++ colWord s.c1 ++ colWord s.c2 ++ colWord s.c3

/-- A 4-byte word as event data: data[31:0], the rest 0 (60_exceptions.md R281). -/
def colData (t : Col) : BitVec 128 := (0 : BitVec 96) ++ colWord t

end Sys2Proof.Machine
end

