-- ==== Sys2Proof/Machine/Flags.lean ====
section
/-! DEFINITION. STATUS: its fields, the word a read of it returns, and the codes of ERR (10_state.md R36;
60_exceptions.md R260; 70_reset_and_hazards.md R298). -/

namespace Sys2Proof.Machine

/-- The number of an error code (60_exceptions.md R260). -/
def ErrCode.code : ErrCode → BitVec 4
  | .ok => 0
  | .invalidFormat => 1
  | .invalidKeySize => 2
  | .noKeySchedule => 3
  | .illegalCommand => 4
  | .badRound => 5
  | .noMessage => 6

/-- The bit of a direction (10_state.md R24). -/
def Dir.bit : Dir → Bool
  | .encrypt => false
  | .decrypt => true

/-- The bit of a chaining mode (10_state.md R24). -/
def Mode.bit : Mode → Bool
  | .ecb => false
  | .cbc => true

/-- STATUS.BUSY: a command is in progress (10_state.md R36). -/
def busy (s : State) : Bool := s.pending.isSome

/-- The word STATUS reads as while BUSY = 0, bits 31 down to 0 (10_state.md R36). -/
def statusWord (s : State) : Word :=
  s.lastOp ++ (0 : BitVec 6) ++ BitVec.ofBool (Mode.bit s.msgMode) ++ BitVec.ofBool (Dir.bit s.msgDir) ++ s.nr ++
    s.err ++ (0 : BitVec 4) ++ BitVec.ofBool s.doutValid ++ BitVec.ofBool s.msgActive ++ BitVec.ofBool s.ksValid ++
    BitVec.ofBool (busy s)

/-- The word STATUS reads as while BUSY = 1: LAST_OP and BUSY as they are, every other bit that of `free`
(70_reset_and_hazards.md R298). -/
def statusWordBusy (s : State) (free : Word) : Word :=
  s.lastOp ++ free.extractLsb' 1 23 ++ BitVec.ofBool (busy s)

end Sys2Proof.Machine
end

