-- ==== Sys2Proof/Machine/Operands.lean ====
section
/-! DEFINITION. The operands of the commands: fields of the operand registers, key bytes, round keys, the
variant of a key length, and the first chaining vector (30_encoding.md R101; 10_state.md R24, R28, R40, R42;
42_key_schedule.md R160; 44_mode_controller.md R222, R223). -/

namespace Sys2Proof.Machine

/-- GF_OPND.A (10_state.md R28). -/
def gfA (s : State) : Byte := s.gfOpnd.extractLsb' 0 8

/-- GF_OPND.B (10_state.md R28). -/
def gfB (s : State) : Byte := s.gfOpnd.extractLsb' 8 8

/-- CTRL.DIR (10_state.md R24). -/
def ctrlDir (s : State) : Dir := if s.ctrl.getLsbD 0 then .decrypt else .encrypt

/-- CTRL.MODE (10_state.md R24). -/
def ctrlMode (s : State) : Mode := if s.ctrl.getLsbD 1 then .cbc else .ecb

/-- CTRL.IV_EN (10_state.md R24). -/
def ctrlIvEn (s : State) : Bool := s.ctrl.getLsbD 2

/-- Key byte `j`: `byte_{j mod 4}(KEY[j div 4])`, `j < 32` (10_state.md R40). -/
def keyByte (key : Vector Word 8) (j : Nat) : Byte := byteK (j % 4) (key[j / 4]?.getD 0)

/-- The first `len` key bytes (10_state.md R40). -/
def keyBytes (key : Vector Word 8) (len : Nat) : List Byte := (List.range len).map (keyByte key)

/-- `Nk` of a key length in bytes, and `Nr`, for the lengths that are accepted (42_key_schedule.md R160). -/
def variant (len : Nat) : Option (Nat × Nat) :=
  match len with
  | 16 => some (4, 10)
  | 24 => some (6, 12)
  | 32 => some (8, 14)
  | _ => none

/-- Word `i` of a round-key store; 0 past its end, which no command reaches (10_state.md R42). Log entry 16. -/
def rkWord (rk : Vector Word 60) (i : Nat) : Word := rk[i]?.getD 0

/-- `RK(r)` (10_state.md R42). -/
def roundKey (rk : Vector Word 60) (r : Nat) : Block :=
  ⟨colOf (rkWord rk (4 * r)), colOf (rkWord rk (4 * r + 1)), colOf (rkWord rk (4 * r + 2)),
    colOf (rkWord rk (4 * r + 3))⟩

/-- `STATUS.NR` as a number of rounds. -/
def rounds (s : State) : Nat := s.nr.toNat

/-- MSG_LEN.LEN is nonzero and a multiple of 16 (10_state.md R27). -/
def msgLenOk (s : State) : Bool := s.msgLen ≠ 0 && s.msgLen.toNat % 16 = 0

/-- `MSG_LEN.LEN / 16` as BLOCKS_LEFT holds it (10_state.md R38). -/
def msgBlocks (s : State) : BitVec 28 := BitVec.ofNat 28 (s.msgLen.toNat / 16)

/-- The chaining vector a message starts with: IV, or zeros when IV_EN = 0 (44_mode_controller.md R223). -/
def startVector (s : State) : Block := if ctrlIvEn s then blkOf s.iv else zeroBlock

end Sys2Proof.Machine
end

