-- ==== Sys2Proof/Machine/Trace.lean ====
section
/-! DEFINITION. The trace port: codes of the event kinds, events of words and blocks, and what the port shows
(60_exceptions.md R280, R281). -/

namespace Sys2Proof.Machine

/-- The 4-bit code of a kind; 12..15 are never emitted (60_exceptions.md R281). -/
def TraceKind.code : TraceKind → BitVec 4
  | .ksRot => 0
  | .ksSub => 1
  | .ksRcon => 2
  | .ksWord => 3
  | .blkArk => 4
  | .blkSb => 5
  | .blkSr => 6
  | .blkMc => 7
  | .blkIsr => 8
  | .blkIsb => 9
  | .blkImc => 10
  | .modeXor => 11

/-- The 140 bits of an event. R281 of 60_exceptions.md gives the three fields and their widths. DESIGN CHOICE: how they
lie in one bit string is the model's, `kind` in the highest bits, then `idx`, then `data`. Log entry 18. -/
def TraceEvent.bits (e : TraceEvent) : BitVec 140 := TraceKind.code e.kind ++ e.idx ++ e.data

/-- `Event(K, i, t)` of a 4-byte word (60_exceptions.md R281). -/
def colEvent (k : TraceKind) (i : Nat) (t : Col) : TraceEvent := ⟨k, BitVec.ofNat 8 i, colData t⟩

/-- `Event(K, i, s)` of a block (60_exceptions.md R281). -/
def blockEvent (k : TraceKind) (i : Nat) (s : Block) : TraceEvent := ⟨k, BitVec.ofNat 8 i, blockData s⟩

/-- What an instance's trace port has shown: the events, or nothing where the port is absent
(60_exceptions.md R280). -/
def portTrace (s : State) : List TraceEvent := if Config.tracePresent then s.trace else []

end Sys2Proof.Machine
end

