-- ==== Sys2Proof/Machine/Ops.lean ====
section
/-! DEFINITION. The shared operations: ending a command with an error or with success, ending and opening a
message, emitting events, storing a schedule, issuing a command, and reset (60_exceptions.md R262, R263;
42_key_schedule.md R171; 70_reset_and_hazards.md R290, R296). -/

namespace Sys2Proof.Machine

/-- `raise Error(code)`: the command ends with ERR = code and DOUT_VALID = 0, and BUSY falls
(60_exceptions.md R262). This hardware has no trap entry: nothing else is saved (60_exceptions.md R265). -/
def raiseError (e : ErrCode) (s : State) : State :=
  { s with err := ErrCode.code e, doutValid := false, pending := none }

/-- A command ends with success: ERR = 0, and BUSY falls (60_exceptions.md R263; 70_reset_and_hazards.md R296).
There is no return from an error (60_exceptions.md R268). -/
def succeed (s : State) : State := { s with err := ErrCode.code .ok, pending := none }

/-- An open message is ended: MSG_ACTIVE and BLOCKS_LEFT become 0 (42_key_schedule.md R172; 60_exceptions.md
R262). -/
def endMessage (s : State) : State := { s with msgActive := false, blocksLeft := 0 }

/-- Events appended to the trace port's output (60_exceptions.md R280, R281). -/
def emit (es : List TraceEvent) (s : State) : State := { s with trace := s.trace ++ es }

/-- `Blk(STATE) <- b` (10_state.md R46). -/
def putState (b : Block) (s : State) : State := { s with state := quadOf b }

/-- A command has used the working block; what W holds from then on is any value (10_state.md R48). -/
def leaveWork (s : State) : State := { s with work := Config.freeWork s.draws, draws := s.draws + 1 }

/-- The store a schedule leaves: word `i` below `4(nr + 1)`, 0 above (42_key_schedule.md R171). Irreducible, so
that unification never unfolds sixty words. -/
@[irreducible] def scheduleStore (w : List Col) (nr : Nat) : Vector Word 60 :=
  Vector.ofFn fun i : Fin 60 => if i.val < 4 * (nr + 1) then colWord (w.getD i.val ⟨0, 0, 0, 0⟩) else 0

/-- `StoreSchedule(w, Nr)` (42_key_schedule.md R171). -/
def storeSchedule (w : List Col) (nr : Nat) (s : State) : State :=
  { s with rk := scheduleStore w nr, nr := BitVec.ofNat 4 nr, ksValid := true }

/-- MSG_START's last part: CV is loaded, direction and mode are latched, and the message is open
(44_mode_controller.md R222). -/
def openMessage (s : State) : State :=
  { s with
    cv := quadOf (startVector s)
    msgDir := ctrlDir s
    msgMode := ctrlMode s
    blocksLeft := msgBlocks s
    msgActive := true
    doutValid := false }

/-- The end of a successful MSG_BLOCK: one block fewer is left, the last one closes the message, and DOUT is
valid (44_mode_controller.md R230, R235). -/
def countBlock (s : State) : State :=
  { s with
    blocksLeft := s.blocksLeft - 1
    msgActive := s.blocksLeft - 1 ≠ 0
    doutValid := true }

/-- The command word `w` is in progress with `wait` host turns before its completion: BUSY = 1, and LAST_OP is
its OP, legal or not (30_encoding.md R107; 10_state.md R36). -/
def beginCommand (w : Word) (wait : Nat) (s : State) : State :=
  { s with pending := some ⟨w, wait⟩, lastOp := w.extractLsb' 0 8 }

/-- Issue of the word `w`: it is in progress for `CMD_LATENCY` turns (70_reset_and_hazards.md R296). -/
def issue (w : Word) (s : State) : State :=
  let s' := beginCommand w (Config.cmdLatency (w.extractLsb' 0 8) s.draws) s
  { s' with draws := s.draws + 1 }

/-- `rst_n` goes low: every piece of state takes its reset value, a command in progress is abandoned, and W is
any value (10_state.md R49; 70_reset_and_hazards.md R290). What has been emitted and read, and the host's turns to
come, stay. -/
def resetByPin (s : State) : State :=
  { State.reset with
    work := Config.freeWork s.draws
    rstN := false
    trace := s.trace
    inputs := s.inputs
    reads := s.reads
    draws := s.draws + 1 }

/-- `rst_n` is driven to a level (70_reset_and_hazards.md R290, R291). -/
def driveReset (high : Bool) (s : State) : State :=
  if high then { s with rstN := true } else resetByPin s

end Sys2Proof.Machine
end

