-- ==== Sys2Proof/Machine/Bus.lean ====
section
/-! DEFINITION. The host's side of the bus: the register map, the access kinds, reads and writes with BUSY = 0 and
with BUSY = 1, and the host's turn (10_state.md R22, R23; 20_memory.md R70..R73, R79; 70_reset_and_hazards.md
R291, R298, R300). -/

namespace Sys2Proof.Machine

/-- The offset of a register (10_state.md R22). -/
def Reg.offset : Reg → BitVec 9
  | .ctrl => 0x000
  | .cmd => 0x004
  | .status => 0x008
  | .keyLen => 0x00C
  | .msgLen => 0x010
  | .blocksLeft => 0x014
  | .gfOpnd => 0x018
  | .gfRes => 0x01C
  | .key j => BitVec.ofNat 9 (0x020 + 4 * j.val)
  | .iv j => BitVec.ofNat 9 (0x040 + 4 * j.val)
  | .din j => BitVec.ofNat 9 (0x050 + 4 * j.val)
  | .dout j => BitVec.ofNat 9 (0x060 + 4 * j.val)
  | .state j => BitVec.ofNat 9 (0x070 + 4 * j.val)
  | .cv j => BitVec.ofNat 9 (0x080 + 4 * j.val)
  | .rk i => BitVec.ofNat 9 (0x100 + 4 * i.val)

/-- The register of the word at byte offset `4·k`; none at a reserved offset (10_state.md R22). -/
def regOfIndex (k : Nat) : Option Reg :=
  match k with
  | 0 => some .ctrl
  | 1 => some .cmd
  | 2 => some .status
  | 3 => some .keyLen
  | 4 => some .msgLen
  | 5 => some .blocksLeft
  | 6 => some .gfOpnd
  | 7 => some .gfRes
  | _ =>
    if h : 8 ≤ k ∧ k < 16 then some (.key ⟨k - 8, by omega⟩)
    else if h : 16 ≤ k ∧ k < 20 then some (.iv ⟨k - 16, by omega⟩)
    else if h : 20 ≤ k ∧ k < 24 then some (.din ⟨k - 20, by omega⟩)
    else if h : 24 ≤ k ∧ k < 28 then some (.dout ⟨k - 24, by omega⟩)
    else if h : 28 ≤ k ∧ k < 32 then some (.state ⟨k - 28, by omega⟩)
    else if h : 32 ≤ k ∧ k < 36 then some (.cv ⟨k - 32, by omega⟩)
    else if h : 64 ≤ k ∧ k < 124 then some (.rk ⟨k - 64, by omega⟩)
    else none

/-- The register at an aligned byte offset (10_state.md R22). -/
def regAt (off : BitVec 9) : Option Reg := regOfIndex (off.toNat / 4)

/-- The offset within the window of a platform address, for a window at `base` (20_memory.md R70, R80). -/
def windowOffset (base addr : Nat) : Option (BitVec 9) :=
  if base ≤ addr ∧ addr < base + 512 then some (BitVec.ofNat 9 (addr - base)) else none

/-- The register at a platform address, with the window at CORE_BASE (20_memory.md R70). -/
def platformReg (addr : Nat) : Option Reg := (windowOffset Config.coreBase addr).bind regAt

/-- What a read of a register returns while BUSY = 0, its reserved bits 0 (10_state.md R22, R23). -/
def readReg (r : Reg) (s : State) : Word :=
  match r with
  | .ctrl => s.ctrl.setWidth 32
  | .cmd => 0
  | .status => statusWord s
  | .keyLen => s.keyLen.setWidth 32
  | .msgLen => s.msgLen
  | .blocksLeft => s.blocksLeft.setWidth 32
  | .gfOpnd => s.gfOpnd.setWidth 32
  | .gfRes => s.gfRes.setWidth 32
  | .key j => s.key[j]
  | .iv j => quadGet s.iv j
  | .din j => quadGet s.din j
  | .dout j => quadGet s.dout j
  | .state j => quadGet s.state j
  | .cv j => quadGet s.cv j
  | .rk i => s.rk[i]

/-- What a write of a register does while BUSY = 0: an RW register keeps its defined bits, an RO register ignores
the write, CMD issues a command (10_state.md R23, R30; 20_memory.md R73). -/
def writeReg (r : Reg) (v : Word) (s : State) : State :=
  match r with
  | .ctrl => { s with ctrl := v.setWidth 3 }
  | .cmd => issue v s
  | .status => s
  | .keyLen => { s with keyLen := v.setWidth 8 }
  | .msgLen => { s with msgLen := v }
  | .blocksLeft => s
  | .gfOpnd => { s with gfOpnd := v.setWidth 16 }
  | .gfRes => s
  | .key j => { s with key := s.key.set j v }
  | .iv j => { s with iv := quadSet s.iv j v }
  | .din j => { s with din := quadSet s.din j v }
  | .dout _ => s
  | .state j => { s with state := quadSet s.state j v }
  | .cv _ => s
  | .rk _ => s

/-- `BusRead(off)` with BUSY = 0; a reserved offset reads 0 (20_memory.md R72, R73). -/
def busRead (off : BitVec 9) (s : State) : Word :=
  match regAt off with
  | some r => readReg r s
  | none => 0

/-- `BusWrite(off, v)` with BUSY = 0; a reserved offset ignores it (20_memory.md R72, R73). -/
def busWrite (off : BitVec 9) (v : Word) (s : State) : State :=
  match regAt off with
  | some r => writeReg r v s
  | none => s

/-- What a read returns while BUSY = 1, given a free value: STATUS keeps BUSY and LAST_OP, all else is free
(70_reset_and_hazards.md R298). Log entry 4. -/
def busReadBusy (off : BitVec 9) (s : State) (free : Word) : Word :=
  if regAt off = some .status then statusWordBusy s free else free

/-- The access is a naturally aligned 32-bit one (20_memory.md R71). -/
def aligned (size : AccessSize) (off : BitVec 9) : Bool := size = .word && off.extractLsb' 0 2 = 0

/-- The value of one RD statement is recorded (70_reset_and_hazards.md R306). -/
def record (v : Word) (s : State) : State := { s with reads := s.reads ++ [v] }

/-- One bus read of the host. Only the record of what it returned changes (20_memory.md R79). -/
def hostRead (size : AccessSize) (off : BitVec 9) (s : State) : Host.Outcome State Fault Refusal :=
  if !s.rstN then .fault .accessDuringReset
  else if !aligned size off then .fault .busError
  else if busy s then
    .next (record (busReadBusy off s (Config.freeWord s.draws)) { s with draws := s.draws + 1 })
  else .next (record (busRead off s) s)

/-- One bus write of the host. -/
def hostWrite (size : AccessSize) (off : BitVec 9) (v : Word) (s : State) : Host.Outcome State Fault Refusal :=
  if !s.rstN then .fault .accessDuringReset
  else if !aligned size off then .fault .busError
  else if busy s then .fault .writeWhileBusy
  else .next (busWrite off v s)

/-- One read of STATUS by POLL: only BUSY counts, and while it is 1 the poll is repeated on the host's next turn
(30_encoding.md R111). Log entry 14. -/
def hostPoll (s : State) : Host.Outcome State Fault Refusal :=
  if !s.rstN then .fault .accessDuringReset
  else if busy s then .next { s with inputs := .poll :: s.inputs }
  else .next s

/-- One action of the host (00_scope.md R8). -/
def hostAct (a : HostAction) (s : State) : Host.Outcome State Fault Refusal :=
  match a with
  | .idle => .next s
  | .read size off => hostRead size off s
  | .write size off v => hostWrite size off v s
  | .poll => hostPoll s
  | .driveRst high => .next (driveReset high s)

/-- The host's turn: its next action, or nothing when it has none (00_scope.md R8; 70_reset_and_hazards.md R292). -/
def hostTurn (s : State) : Host.Outcome State Fault Refusal :=
  match s.inputs with
  | [] => .next s
  | a :: rest => hostAct a { s with inputs := rest }

end Sys2Proof.Machine
end

