-- ==== Sys2Proof/Machine/Control.lean ====
section
/-! DEFINITION. The control commands: NOP and the ILLEGAL pseudo-command (45_control.md R250, R251). -/

namespace Sys2Proof.Machine

/-- NOP: ERR <- 0 and nothing else (45_control.md R250). -/
def execNop (s : State) : Host.Outcome State Fault Refusal := .next (succeed s)

/-- Completion of a word that spells no command: ERR = 4, DOUT_VALID = 0, nothing else (45_control.md R251;
30_encoding.md R106). -/
def completeIllegal (s : State) : Host.Outcome State Fault Refusal := .next (raiseError .illegalCommand s)

end Sys2Proof.Machine
end

