-- ==== Sys2Proof/Machine/GfArith.lean ====
section
/-! DEFINITION. Arithmetic of GF(2^8) (40_gf_arith.md R130, R131, R132). -/

namespace Sys2Proof.Machine

/-- `xtime`: multiplication by {02} modulo 0x11B (40_gf_arith.md R130). -/
def xtime (b : Byte) : Byte := (b <<< 1) ^^^ (if b.getLsbD 7 then 0x1B else 0x00)

/-- `mul1` (40_gf_arith.md R131). -/
def mul1 (b : Byte) : Byte := b

/-- `mul2` (40_gf_arith.md R131). -/
def mul2 (b : Byte) : Byte := xtime b

/-- `mul3` (40_gf_arith.md R131). -/
def mul3 (b : Byte) : Byte := xtime b ^^^ b

/-- `mul9` (40_gf_arith.md R131). -/
def mul9 (b : Byte) : Byte := xtime (xtime (xtime b)) ^^^ b

/-- `mul11` (40_gf_arith.md R131). -/
def mul11 (b : Byte) : Byte := xtime (xtime (xtime b)) ^^^ xtime b ^^^ b

/-- `mul13` (40_gf_arith.md R131). -/
def mul13 (b : Byte) : Byte := xtime (xtime (xtime b)) ^^^ xtime (xtime b) ^^^ b

/-- `mul14` (40_gf_arith.md R131). -/
def mul14 (b : Byte) : Byte := xtime (xtime (xtime b)) ^^^ xtime (xtime b) ^^^ xtime b

/-- The loop of `gmul` from bit `i` on, for `n` more bits, with the pseudocode's `t` and `p`
(40_gf_arith.md R132). -/
def gmulLoop (b : Byte) : (n i : Nat) → (t p : Byte) → Byte
  | 0, _, _, p => p
  | n + 1, i, t, p => gmulLoop b n (i + 1) (xtime t) (if b.getLsbD i then p ^^^ t else p)

/-- `gmul(a, b)`, the general product (40_gf_arith.md R132). -/
def gmul (a b : Byte) : Byte := gmulLoop b 8 0 a 0x00

end Sys2Proof.Machine
end

