-- ==== Sys2Proof/Machine/GfMultiplier.lean ====
section
/-! DEFINITION. The GF_MUL command (40_gf_arith.md R140). -/

namespace Sys2Proof.Machine

/-- GF_MUL: GF_RES <- gmul(A, B); no event (40_gf_arith.md R140, R141). -/
def execGfMul (s : State) : Host.Outcome State Fault Refusal :=
  .next (succeed { s with gfRes := gmul (gfA s) (gfB s) })

end Sys2Proof.Machine
end

