-- ==== Sys2Proof/Machine/KeySchedule.lean ====
section
/-! DEFINITION. The key schedule expander and EXPAND_KEY (42_key_schedule.md R161..R172), with the key-schedule
events (60_exceptions.md R283). -/

namespace Sys2Proof.Machine

/-- `RotWord` (42_key_schedule.md R161). -/
def rotWord (t : Col) : Col := ⟨t.b1, t.b2, t.b3, t.b0⟩

/-- `SubWord` (42_key_schedule.md R162). -/
def subWord (t : Col) : Col := ⟨sbox t.b0, sbox t.b1, sbox t.b2, sbox t.b3⟩

/-- `Rcon(r)`: `xtime` applied `r - 1` times to 0x01 (42_key_schedule.md R163). -/
def rcon (r : Nat) : Byte := Nat.iterate xtime (r - 1) 0x01

/-- One pass of KeyExpansion's loop: the word generated, the count of core transformations so far, and the events. -/
structure WordStep where
  word : Col
  fired : Nat
  events : List TraceEvent
  deriving DecidableEq, Repr

/-- Word `i` of the schedule, `i ≥ nk`. `before` holds `w[i-1], w[i-2], …` and `fired` the pseudocode's `r`
(42_key_schedule.md R164; 60_exceptions.md R283). -/
def nextWord (nk i fired : Nat) (before : List Col) : WordStep :=
  let t := before.getD 0 ⟨0, 0, 0, 0⟩
  let earlier := before.getD (nk - 1) ⟨0, 0, 0, 0⟩
  if i % nk = 0 then
    let rot := rotWord t
    let sub := subWord rot
    let mixed : Col := { sub with b0 := sub.b0 ^^^ rcon (fired + 1) }
    let w := xorCol earlier mixed
    ⟨w, fired + 1, [colEvent .ksRot i rot, colEvent .ksSub i sub, colEvent .ksRcon i mixed, colEvent .ksWord i w]⟩
  else if nk = 8 ∧ i % nk = 4 then
    let sub := subWord t
    let w := xorCol earlier sub
    ⟨w, fired, [colEvent .ksSub i sub, colEvent .ksWord i w]⟩
  else
    let w := xorCol earlier t
    ⟨w, fired, [colEvent .ksWord i w]⟩

/-- The loop of KeyExpansion for `n` more words from index `i` on: the whole schedule in order, and the events
of these words (42_key_schedule.md R164). -/
def expandLoop (nk : Nat) : (n i fired : Nat) → (before : List Col) → List Col × List TraceEvent
  | 0, _, _, before => (before.reverse, [])
  | n + 1, i, fired, before =>
    let st := nextWord nk i fired before
    let rest := expandLoop nk n (i + 1) st.fired (st.word :: before)
    (rest.1, st.events ++ rest.2)

/-- The first `nk` words: the key's bytes (42_key_schedule.md R164). -/
def keyWords (key : List Byte) (nk : Nat) : List Col :=
  (List.range nk).map fun i =>
    ⟨key.getD (4 * i) 0, key.getD (4 * i + 1) 0, key.getD (4 * i + 2) 0, key.getD (4 * i + 3) 0⟩

/-- `KeyExpansion(key, Nk, Nr)` with its events (42_key_schedule.md R164; 60_exceptions.md R283). -/
def keyExpansion (key : List Byte) (nk nr : Nat) : List Col × List TraceEvent :=
  expandLoop nk (4 * (nr + 1) - nk) nk 0 (keyWords key nk).reverse

/-- The key in KEY0..KEY7 is expanded and the schedule stored, with the events (42_key_schedule.md R170, R171). -/
def expandAndStore (nk nr : Nat) (s : State) : State :=
  let out := keyExpansion (keyBytes s.key s.keyLen.toNat) nk nr
  emit out.2 (storeSchedule out.1 nr s)

/-- EXPAND_KEY (42_key_schedule.md R170, R172). -/
def execExpandKey (s : State) : Host.Outcome State Fault Refusal :=
  match variant s.keyLen.toNat with
  | none => .next (raiseError .invalidKeySize s)
  | some (nk, nr) => .next (succeed (endMessage (expandAndStore nk nr s)))

end Sys2Proof.Machine
end

