-- ==== Sys2Proof/Machine/RoundEngine.lean ====
section
/-! DEFINITION. The round engine: the round transformations, Cipher and InvCipher as sequences of them, and the
nine commands on STATE (43_round_engine.md R180..R208), with the block events (60_exceptions.md R284). -/

namespace Sys2Proof.Machine

/-- A byte function on each byte of a column. -/
def mapCol (f : Byte → Byte) (t : Col) : Col := ⟨f t.b0, f t.b1, f t.b2, f t.b3⟩

/-- A byte function on each byte of a block. -/
def mapBytes (f : Byte → Byte) (s : Block) : Block := ⟨mapCol f s.c0, mapCol f s.c1, mapCol f s.c2, mapCol f s.c3⟩

/-- A column function on each column of a block. -/
def mapCols (f : Col → Col) (s : Block) : Block := ⟨f s.c0, f s.c1, f s.c2, f s.c3⟩

/-- `SubBytes` (43_round_engine.md R180). -/
def subBytes (s : Block) : Block := mapBytes sbox s

/-- `InvSubBytes` (43_round_engine.md R181). -/
def invSubBytes (s : Block) : Block := mapBytes invSbox s

/-- `ShiftRows`: row `r` shifted left by `r` (43_round_engine.md R182). -/
def shiftRows (s : Block) : Block :=
  ⟨⟨s.c0.b0, s.c1.b1, s.c2.b2, s.c3.b3⟩, ⟨s.c1.b0, s.c2.b1, s.c3.b2, s.c0.b3⟩,
    ⟨s.c2.b0, s.c3.b1, s.c0.b2, s.c1.b3⟩, ⟨s.c3.b0, s.c0.b1, s.c1.b2, s.c2.b3⟩⟩

/-- `InvShiftRows`: row `r` shifted right by `r` (43_round_engine.md R183). -/
def invShiftRows (s : Block) : Block :=
  ⟨⟨s.c0.b0, s.c3.b1, s.c2.b2, s.c1.b3⟩, ⟨s.c1.b0, s.c0.b1, s.c3.b2, s.c2.b3⟩,
    ⟨s.c2.b0, s.c1.b1, s.c0.b2, s.c3.b3⟩, ⟨s.c3.b0, s.c2.b1, s.c1.b2, s.c0.b3⟩⟩

/-- `MixColumns` on one column (43_round_engine.md R184). -/
def mixCol (t : Col) : Col :=
  ⟨mul2 t.b0 ^^^ mul3 t.b1 ^^^ t.b2 ^^^ t.b3, t.b0 ^^^ mul2 t.b1 ^^^ mul3 t.b2 ^^^ t.b3,
    t.b0 ^^^ t.b1 ^^^ mul2 t.b2 ^^^ mul3 t.b3, mul3 t.b0 ^^^ t.b1 ^^^ t.b2 ^^^ mul2 t.b3⟩

/-- `InvMixColumns` on one column (43_round_engine.md R185). -/
def invMixCol (t : Col) : Col :=
  ⟨mul14 t.b0 ^^^ mul11 t.b1 ^^^ mul13 t.b2 ^^^ mul9 t.b3, mul9 t.b0 ^^^ mul14 t.b1 ^^^ mul11 t.b2 ^^^ mul13 t.b3,
    mul13 t.b0 ^^^ mul9 t.b1 ^^^ mul14 t.b2 ^^^ mul11 t.b3, mul11 t.b0 ^^^ mul13 t.b1 ^^^ mul9 t.b2 ^^^ mul14 t.b3⟩

/-- `MixColumns` (43_round_engine.md R184). -/
def mixColumns (s : Block) : Block := mapCols mixCol s

/-- `InvMixColumns` (43_round_engine.md R185). -/
def invMixColumns (s : Block) : Block := mapCols invMixCol s

/-- `AddRoundKey(s, k)` (43_round_engine.md R186). -/
def addRoundKey (s k : Block) : Block := xorBlock s k

/-- One round transformation, with the index of its event: a round, or the index of the round key used
(60_exceptions.md R284). -/
inductive RoundStep where
  | ark (r : Nat)
  | sb (r : Nat)
  | sr (r : Nat)
  | mc (r : Nat)
  | isr (r : Nat)
  | isb (r : Nat)
  | imc (r : Nat)
  deriving DecidableEq, Repr

/-- The block after a round transformation, `key` giving the round keys. -/
def RoundStep.apply (key : Nat → Block) (st : RoundStep) (s : Block) : Block :=
  match st with
  | .ark r => Machine.addRoundKey s (key r)
  | .sb _ => Machine.subBytes s
  | .sr _ => Machine.shiftRows s
  | .mc _ => Machine.mixColumns s
  | .isr _ => Machine.invShiftRows s
  | .isb _ => Machine.invSubBytes s
  | .imc _ => Machine.invMixColumns s

/-- The event of a round transformation that left the block `s` (60_exceptions.md R281, R284). -/
def RoundStep.event (st : RoundStep) (s : Block) : TraceEvent :=
  match st with
  | .ark r => blockEvent .blkArk r s
  | .sb r => blockEvent .blkSb r s
  | .sr r => blockEvent .blkSr r s
  | .mc r => blockEvent .blkMc r s
  | .isr r => blockEvent .blkIsr r s
  | .isb r => blockEvent .blkIsb r s
  | .imc r => blockEvent .blkImc r s

/-- A sequence of round transformations: the last block, and the event of each (43_round_engine.md R190, R191). -/
def runSteps (key : Nat → Block) : List RoundStep → Block → Block × List TraceEvent
  | [], s => (s, [])
  | st :: rest, s =>
    let s' := RoundStep.apply key st s
    let out := runSteps key rest s'
    (out.1, RoundStep.event st s' :: out.2)

/-- The middle round `r` of Cipher (43_round_engine.md R190). -/
def forwardRound (r : Nat) : List RoundStep := [.sb r, .sr r, .mc r, .ark r]

/-- The middle round of InvCipher that uses round key `k` (43_round_engine.md R191). -/
def inverseRound (k : Nat) : List RoundStep := [.isr k, .isb k, .ark k, .imc k]

/-- The transformations of `Cipher(s, Nr)` (43_round_engine.md R190). -/
def cipherSteps (nr : Nat) : List RoundStep :=
  .ark 0 :: ((List.range (nr - 1)).flatMap fun k => forwardRound (k + 1)) ++ [.sb nr, .sr nr, .ark nr]

/-- The transformations of `InvCipher(s, Nr)` (43_round_engine.md R191). -/
def invCipherSteps (nr : Nat) : List RoundStep :=
  .ark nr :: ((List.range (nr - 1)).flatMap fun k => inverseRound (nr - (k + 1))) ++ [.isr 0, .isb 0, .ark 0]

/-- `Cipher(s, Nr)` with its events (43_round_engine.md R190). -/
def cipher (key : Nat → Block) (nr : Nat) (s : Block) : Block × List TraceEvent := runSteps key (cipherSteps nr) s

/-- `InvCipher(s, Nr)` with its events (43_round_engine.md R191). -/
def invCipher (key : Nat → Block) (nr : Nat) (s : Block) : Block × List TraceEvent :=
  runSteps key (invCipherSteps nr) s

/-- A single-step command: one transformation of STATE, in place, with its event (43_round_engine.md R200..R206). -/
def stepState (st : RoundStep) (s : State) : State :=
  let b := RoundStep.apply (roundKey s.rk) st (blkOf s.state)
  succeed (emit [RoundStep.event st b] (putState b s))

/-- A whole-block command: STATE is replaced by the block transform of it, which W held, with the transform's
events (43_round_engine.md R207, R208). -/
def blockState (steps : List RoundStep) (s : State) : State :=
  let out := runSteps (roundKey s.rk) steps (blkOf s.state)
  succeed (emit out.2 (leaveWork (putState out.1 s)))

/-- SUB_BYTES (43_round_engine.md R200). -/
def execSubBytes (s : State) : Host.Outcome State Fault Refusal := .next (stepState (.sb 0) s)

/-- INV_SUB_BYTES (43_round_engine.md R201). -/
def execInvSubBytes (s : State) : Host.Outcome State Fault Refusal := .next (stepState (.isb 0) s)

/-- SHIFT_ROWS (43_round_engine.md R202). -/
def execShiftRows (s : State) : Host.Outcome State Fault Refusal := .next (stepState (.sr 0) s)

/-- INV_SHIFT_ROWS (43_round_engine.md R203). -/
def execInvShiftRows (s : State) : Host.Outcome State Fault Refusal := .next (stepState (.isr 0) s)

/-- MIX_COLUMNS (43_round_engine.md R204). -/
def execMixColumns (s : State) : Host.Outcome State Fault Refusal := .next (stepState (.mc 0) s)

/-- INV_MIX_COLUMNS (43_round_engine.md R205). -/
def execInvMixColumns (s : State) : Host.Outcome State Fault Refusal := .next (stepState (.imc 0) s)

/-- ADD_ROUND_KEY `rnd`: NO_KEY_SCHEDULE before BAD_ROUND (43_round_engine.md R206; 60_exceptions.md R264). -/
def execAddRoundKey (rnd : Nat) (s : State) : Host.Outcome State Fault Refusal :=
  if !s.ksValid then .next (raiseError .noKeySchedule s)
  else if rounds s < rnd then .next (raiseError .badRound s)
  else .next (stepState (.ark rnd) s)

/-- ENC_STATE (43_round_engine.md R207). -/
def execEncState (s : State) : Host.Outcome State Fault Refusal :=
  if !s.ksValid then .next (raiseError .noKeySchedule s)
  else .next (blockState (cipherSteps (rounds s)) s)

/-- DEC_STATE (43_round_engine.md R208). -/
def execDecState (s : State) : Host.Outcome State Fault Refusal :=
  if !s.ksValid then .next (raiseError .noKeySchedule s)
  else .next (blockState (invCipherSteps (rounds s)) s)

end Sys2Proof.Machine
end

