-- ==== Sys2Proof/Machine/ModeController.lean ====
section
/-! DEFINITION. The ECB/CBC mode controller: MSG_START and MSG_BLOCK (44_mode_controller.md R222, R230), with the
mode events (60_exceptions.md R285). -/

namespace Sys2Proof.Machine

/-- MSG_START: the length is checked before the key (44_mode_controller.md R222, R224). -/
def execMsgStart (s : State) : Host.Outcome State Fault Refusal :=
  if !msgLenOk s then .next (raiseError .invalidFormat (endMessage s))
  else
    match variant s.keyLen.toNat with
    | none => .next (raiseError .invalidKeySize (endMessage s))
    | some (nk, nr) => .next (succeed (openMessage (expandAndStore nk nr s)))

/-- What passing one block gives: the output block, the chaining vector afterwards, and the events. -/
structure BlockResult where
  out : Block
  cv : Block
  events : List TraceEvent
  deriving DecidableEq, Repr

/-- The block `p` passed with chaining vector `cv`, by direction and mode (44_mode_controller.md R231..R234). -/
def passBlock (key : Nat → Block) (nr : Nat) (dir : Dir) (mode : Mode) (cv p : Block) : BlockResult :=
  match dir, mode with
  | .encrypt, .ecb =>
    let c := cipher key nr p
    { out := c.1, cv := cv, events := c.2 }
  | .encrypt, .cbc =>
    let x := xorBlock p cv
    let c := cipher key nr x
    { out := c.1, cv := c.1, events := blockEvent .modeXor 0 x :: c.2 }
  | .decrypt, .ecb =>
    let d := invCipher key nr p
    { out := d.1, cv := cv, events := d.2 }
  | .decrypt, .cbc =>
    let d := invCipher key nr p
    let x := xorBlock d.1 cv
    { out := x, cv := p, events := d.2 ++ [blockEvent .modeXor 0 x] }

/-- The block in DIN passed: CV, DOUT and the message's count are updated (44_mode_controller.md R230). -/
def passDin (s : State) : State :=
  let r := passBlock (roundKey s.rk) (rounds s) s.msgDir s.msgMode (blkOf s.cv) (blkOf s.din)
  succeed (emit r.events (countBlock (leaveWork { s with cv := quadOf r.cv, dout := quadOf r.out })))

/-- MSG_BLOCK (44_mode_controller.md R230). -/
def execMsgBlock (s : State) : Host.Outcome State Fault Refusal :=
  if !s.msgActive then .next (raiseError .noMessage s) else .next (passDin s)

end Sys2Proof.Machine
end

