-- ==== Sys2Proof/Machine/Dispatch.lean ====
section
/-! DEFINITION. Each command's meaning: the completion step of the engine for it (70_reset_and_hazards.md R296). -/

namespace Sys2Proof.Machine

def exec (i : Instr) (s : State) : Host.Outcome State Fault Refusal :=
  match i with
  | .nop => Sys2Proof.Machine.execNop s
  | .expandKey => Sys2Proof.Machine.execExpandKey s
  | .encState => Sys2Proof.Machine.execEncState s
  | .decState => Sys2Proof.Machine.execDecState s
  | .subBytes => Sys2Proof.Machine.execSubBytes s
  | .invSubBytes => Sys2Proof.Machine.execInvSubBytes s
  | .shiftRows => Sys2Proof.Machine.execShiftRows s
  | .invShiftRows => Sys2Proof.Machine.execInvShiftRows s
  | .mixColumns => Sys2Proof.Machine.execMixColumns s
  | .invMixColumns => Sys2Proof.Machine.execInvMixColumns s
  | .addRoundKey rnd => Sys2Proof.Machine.execAddRoundKey rnd s
  | .gfMul => Sys2Proof.Machine.execGfMul s
  | .msgStart => Sys2Proof.Machine.execMsgStart s
  | .msgBlock => Sys2Proof.Machine.execMsgBlock s

end Sys2Proof.Machine
end

