-- ==== Sys2Proof/Machine/Engine.lean ====
section
/-! DEFINITION. The engine's completion step, and whose turn it is (70_reset_and_hazards.md R296). -/

namespace Sys2Proof.Machine

/-- Completion of the issued word: the command it decodes to, or the ILLEGAL pseudo-command (30_encoding.md R106;
70_reset_and_hazards.md R296). -/
def complete (w : Word) (s : State) : Host.Outcome State Fault Refusal :=
  match decode w with
  | .ok i => exec i s
  | .error _ => completeIllegal s

/-- One turn: the engine completes the command in progress once its wait is used up; until then, and with no
command in progress, the host acts (00_scope.md R8; 70_reset_and_hazards.md R296). Log entries 2 and 3. -/
def turn (s : State) : Host.Outcome State Fault Refusal :=
  match s.pending with
  | none => hostTurn s
  | some ⟨w, 0⟩ => complete w s
  | some ⟨w, n + 1⟩ => hostTurn { s with pending := some ⟨w, n⟩ }

/-- The word `w` has been issued and its wait is used up, with `rst_n` released: the next step is its completion.
Log entry 11. -/
def placeCommand (w : Word) (s : State) : State := { beginCommand w 0 s with rstN := true }

end Sys2Proof.Machine
end

