-- ==== Sys2Proof/Machine/Step.lean ====
section
/-! DEFINITION. The step of the machine, and a state whose next step runs a given command word. -/

namespace Sys2Proof.Machine

/-- One step: a turn of the engine or of the host (00_scope.md R8). -/
def step (s : State) : Host.Outcome State Fault Refusal := turn s

/-- `s` with the command word `w` issued and due, so that the very next step runs it. Log entry 11. -/
def State.withFetchWord (s : State) (nbits w : Nat) : State := placeCommand (tableWord nbits w) s

end Sys2Proof.Machine
end

