-- ==== Sys2Proof/Machine/Driver.lean ====
section
/-! DEFINITION. The host driver: the statements of a host program as turns of the host (30_encoding.md R110, R111),
hex text (00_scope.md R16), and the programs of the source's three functions (30_encoding.md R102;
44_mode_controller.md R236) with the checks that are the host's (60_exceptions.md R266). Log entry 13. -/

namespace Sys2Proof.Machine

/-- `WR <reg>, <imm32>` (30_encoding.md R110). -/
def wr (r : Reg) (v : Word) : HostAction := .write .word (Reg.offset r) v

/-- `RD <reg>` (30_encoding.md R110). -/
def rd (r : Reg) : HostAction := .read .word (Reg.offset r)

/-- `DO <MNEMONIC>`: the CMD write, then POLL (30_encoding.md R110, R111). -/
def doCmd (i : Instr) : List HostAction := [wr .cmd (encode i), .poll]

/-- `WRBLK <NAME>` of the register group `name` (30_encoding.md R111). -/
def wrBlk (name : Fin 4 → Reg) (s : Block) : List HostAction :=
  let q := quadOf s
  [wr (name 0) q.w0, wr (name 1) q.w1, wr (name 2) q.w2, wr (name 3) q.w3]

/-- `RDBLK <NAME>` of the register group `name` (30_encoding.md R111). -/
def rdBlk (name : Fin 4 → Reg) : List HostAction := [rd (name 0), rd (name 1), rd (name 2), rd (name 3)]

/-- The words a key's bytes are written as, first to KEY0 (30_encoding.md R111; 10_state.md R40). -/
def keyRegWords (key : List Byte) : List Word := (keyWords key (key.length / 4)).map colWord

/-- `WRKEY`: KEY_LEN, then the key words. For a length the core does not accept only KEY_LEN is written, as
30_encoding.md R111 says; a length above 255 is written as 255. Log entry 13. -/
def wrKey (key : List Byte) : List HostAction :=
  wr .keyLen (BitVec.ofNat 32 (min key.length 255)) ::
    if variant key.length = none then []
    else (List.finRange 8).zipWith (fun j v => wr (.key j) v) (keyRegWords key)

/-- The value of a hex digit of the source's alphabet (00_scope.md R16). -/
def hexDigit (c : Char) : Option Nat :=
  if '0' ≤ c ∧ c ≤ '9' then some (c.toNat - '0'.toNat)
  else if 'a' ≤ c ∧ c ≤ 'f' then some (c.toNat - 'a'.toNat + 10)
  else if 'A' ≤ c ∧ c ≤ 'F' then some (c.toNat - 'A'.toNat + 10)
  else none

/-- The bytes a hex text spells, the most significant digit of each first; none where it holds another character or
an odd number of digits (00_scope.md R16; 60_exceptions.md R266). -/
def hexBytes : List Char → Option (List Byte)
  | [] => some []
  | [_] => none
  | a :: b :: rest =>
    match hexDigit a, hexDigit b, hexBytes rest with
    | some x, some y, some bs => some (BitVec.ofNat 8 (16 * x + y) :: bs)
    | _, _, _ => none

/-- Why the driver writes no register. -/
inductive HostError where
  /-- The text is not whole bytes of hex, or the IV not exactly 32 digits (60_exceptions.md R266). -/
  | invalidFormat
  /-- The message is longer than one MSG_LEN counts; the model's driver does not split it
  (92_eei_decisions.md D14). -/
  | messageTooLong
  deriving DecidableEq, Repr

/-- Column `c` of the block of sixteen bytes from index `at` on (00_scope.md R14). -/
def colFrom (bs : List Byte) (start : Nat) : Col :=
  ⟨bs.getD start 0, bs.getD (start + 1) 0, bs.getD (start + 2) 0, bs.getD (start + 3) 0⟩

/-- Block `j` of a message's bytes (20_memory.md R75). -/
def blockFrom (bs : List Byte) (j : Nat) : Block :=
  ⟨colFrom bs (16 * j), colFrom bs (16 * j + 4), colFrom bs (16 * j + 8), colFrom bs (16 * j + 12)⟩

/-- The blocks of a message in order; none when its length is no multiple of 16, since MSG_START then fails
(20_memory.md R75; 44_mode_controller.md R222). Log entry 13. -/
def blocksOf (bs : List Byte) : List Block :=
  if bs.length % 16 = 0 then (List.range (bs.length / 16)).map (blockFrom bs) else []

/-- A message's blocks as the host passes them: none when the core does not accept the key's length, since MSG_START
then fails. DESIGN CHOICE: 44_mode_controller.md R236 gives only ERR at MSG_START, not what the host does after it.
Log entry 13. -/
def blocksToPass (input key : List Byte) : List Block :=
  if variant key.length = none then [] else blocksOf input

/-- An IV text: exactly 32 hex digits (60_exceptions.md R266; 92_eei_decisions.md D43). -/
def ivOfHex (text : List Char) : Option Block :=
  match hexBytes text with
  | some bs => if bs.length = 16 then some (blockFrom bs 0) else none
  | none => none

/-- The IV of a call, where one is given: none where its text is malformed (60_exceptions.md R266). -/
def optionalIv (text : Option (List Char)) : Option (Option Block) :=
  match text with
  | none => some none
  | some t => (ivOfHex t).map some

/-- The value written to CTRL (10_state.md R24; 44_mode_controller.md R236). -/
def ctrlValue (dir : Dir) (mode : Mode) (ivGiven : Bool) : Word :=
  (0 : BitVec 29) ++ BitVec.ofBool ivGiven ++ BitVec.ofBool (Mode.bit mode) ++ BitVec.ofBool (Dir.bit dir)

/-- The host program of one message, on bytes (44_mode_controller.md R236). DESIGN CHOICE: for an input or a key that
MSG_START rejects it ends after MSG_START, with the error in ERR and nothing read. Log entry 13. -/
def messageProgram (dir : Dir) (mode : Mode) (input key : List Byte) (iv : Option Block) : List HostAction :=
  wrKey key ++ [wr .msgLen (BitVec.ofNat 32 input.length), wr .ctrl (ctrlValue dir mode iv.isSome)] ++
    (match iv with
      | some b => wrBlk .iv b
      | none => []) ++
    doCmd .msgStart ++ (blocksToPass input key).flatMap fun b => wrBlk .din b ++ doCmd .msgBlock ++ rdBlk .dout

/-- The source's `encrypt` or `decrypt` of hex texts as a host program, or the host's own rejection: malformed text
of any length before a message too long (44_mode_controller.md R236; 60_exceptions.md R266). -/
def messageOfHex (dir : Dir) (mode : Mode) (hexIn hexKey : List Char) (hexIv : Option (List Char)) :
    Except HostError (List HostAction) :=
  match hexBytes hexIn, hexBytes hexKey, optionalIv hexIv with
  | some input, some key, some iv =>
    if 2 ^ 32 ≤ input.length then .error .messageTooLong else .ok (messageProgram dir mode input key iv)
  | _, _, _ => .error .invalidFormat

/-- The source's `expand_key` of a key's bytes as a host program: the schedule's words are read in order
(30_encoding.md R102; 10_state.md R42). DESIGN CHOICE: for a key that EXPAND_KEY rejects nothing is read. Log entry
13. -/
def expandKeyProgram (key : List Byte) : List HostAction :=
  wrKey key ++ doCmd .expandKey ++
    match variant key.length with
    | some (_, nr) => ((List.finRange 60).take (4 * (nr + 1))).map fun i => rd (.rk i)
    | none => []

/-- The source's `expand_key` of a hex text, or the host's own rejection (60_exceptions.md R266). -/
def expandKeyOfHex (hexKey : List Char) : Except HostError (List HostAction) :=
  match hexBytes hexKey with
  | some key => .ok (expandKeyProgram key)
  | none => .error .invalidFormat

end Sys2Proof.Machine
end

