-- ==== Sys2Proof/Safety.lean ====
section
/-! DEFINITION. The terms claims are stated in: the invariants of STATUS, of the round-key store and of reset; hosts
that keep the busy protocol; and runs of several commands or of a whole message. -/

namespace Sys2Proof.Machine

/-- The invariants of STATUS (10_state.md R37). -/
def StatusInv (s : State) : Prop :=
  (s.ksValid = false ↔ s.nr = 0) ∧
  (s.ksValid = true ↔ (s.nr = 10 ∨ s.nr = 12 ∨ s.nr = 14)) ∧
  (s.msgActive = true → s.ksValid = true ∧ s.blocksLeft ≠ 0) ∧
  (s.msgActive = false → s.blocksLeft = 0) ∧
  s.err.toNat ≤ 6

/-- RK holds a complete schedule for NR rounds while KS_VALID = 1, and zeros before the first expansion
(10_state.md R36, R42; 70_reset_and_hazards.md R290). -/
def ScheduleInv (s : State) : Prop :=
  (s.ksValid = true → ∃ (key : Vector Word 8) (len nk nr : Nat), variant len = some (nk, nr) ∧
    s.nr = BitVec.ofNat 4 nr ∧ s.rk = scheduleStore (keyExpansion (keyBytes key len) nk nr).1 nr) ∧
  (s.ksValid = false → s.rk = Vector.replicate 60 0)

/-- While `rst_n` is low no command is in progress (70_reset_and_hazards.md R290). -/
def ResetInv (s : State) : Prop := s.rstN = false → s.pending = none

/-- Where a host stands in the busy protocol (70_reset_and_hazards.md R297). -/
inductive Phase where
  /-- No command of its own is unpolled. -/
  | ready
  /-- It has written CMD and not yet polled. -/
  | issued
  /-- It holds `rst_n` low. -/
  | inReset
  deriving DecidableEq, Repr

/-- The phase after an action, where the protocol allows the action: aligned 32-bit accesses only (20_memory.md
R71); after a CMD write only reads of STATUS until the poll (70_reset_and_hazards.md R297); no access while
`rst_n` is low (70_reset_and_hazards.md R291). -/
def Phase.after (p : Phase) (a : HostAction) : Option Phase :=
  match p, a with
  | .ready, .idle => some .ready
  | .ready, .read size off => if aligned size off then some .ready else none
  | .ready, .write size off _ =>
    if aligned size off then some (if regAt off = some .cmd then .issued else .ready) else none
  | .ready, .poll => some .ready
  | .issued, .idle => some .issued
  | .issued, .read size off => if aligned size off && regAt off = some .status then some .issued else none
  | .issued, .write _ _ _ => none
  | .issued, .poll => some .ready
  | .inReset, .idle => some .inReset
  | .inReset, .read _ _ => none
  | .inReset, .write _ _ _ => none
  | .inReset, .poll => none
  | .inReset, .driveRst true => some .ready
  | p, .driveRst true => some p
  | _, .driveRst false => some .inReset

/-- The actions keep the busy protocol from a phase on. -/
def Disciplined : Phase → List HostAction → Bool
  | _, [] => true
  | p, a :: rest =>
    match Phase.after p a with
    | some p' => Disciplined p' rest
    | none => false

/-- The phase a state is in for the host. -/
def phaseOf (s : State) : Phase := if !s.rstN then .inReset else if busy s then .issued else .ready

/-- A list of commands completed one after another, the host writing nothing in between. -/
def execAll : List Instr → State → Host.Outcome State Fault Refusal
  | [], s => .next s
  | i :: rest, s =>
    match exec i s with
    | .next t => execAll rest t
    | .fault f => .fault f
    | .refused r => .refused r

/-- The commands of `Cipher` one transformation at a time (43_round_engine.md R209). -/
def encrypterCommands (nr : Nat) : List Instr :=
  .addRoundKey 0 :: ((List.range (nr - 1)).flatMap fun k =>
      [.subBytes, .shiftRows, .mixColumns, .addRoundKey (k + 1)]) ++ [.subBytes, .shiftRows, .addRoundKey nr]

/-- The commands of `InvCipher` one transformation at a time (43_round_engine.md R209). -/
def decrypterCommands (nr : Nat) : List Instr :=
  .addRoundKey nr :: ((List.range (nr - 1)).flatMap fun k =>
      [.invShiftRows, .invSubBytes, .addRoundKey (nr - (k + 1)), .invMixColumns]) ++
    [.invShiftRows, .invSubBytes, .addRoundKey 0]

/-- Blocks passed in order through the open message, each written to DIN before its MSG_BLOCK; the outputs are
those of DOUT after each (44_mode_controller.md R220, R236). None where a command ends with an error. -/
def passBlocks : List Block → State → Option (State × List Block)
  | [], s => some (s, [])
  | p :: ps, s =>
    match exec .msgBlock { s with din := quadOf p } with
    | .next t =>
      if t.err = 0 then (passBlocks ps t).map fun (u, outs) => (u, blkOf t.dout :: outs) else none
    | .fault _ => none
    | .refused _ => none

/-- A whole message: MSG_START, then its blocks. -/
def passMessage (ps : List Block) (s : State) : Option (State × List Block) :=
  match exec .msgStart s with
  | .next t => if t.err = 0 then passBlocks ps t else none
  | .fault _ => none
  | .refused _ => none

/-- The outputs of a message by the chaining rules alone, from the chaining vector `cv` on
(44_mode_controller.md R231..R234). -/
def chainBlocks (key : Nat → Block) (nr : Nat) (dir : Dir) (mode : Mode) : Block → List Block → List Block
  | _, [] => []
  | cv, p :: ps =>
    let r := passBlock key nr dir mode cv p
    r.out :: chainBlocks key nr dir mode r.cv ps

/-- The register words of blocks, in order. -/
def blockWords (bs : List Block) : List Word :=
  bs.flatMap fun b => let q := quadOf b; [q.w0, q.w1, q.w2, q.w3]

/-- A change of the next state, where there is one. -/
def mapNext (f : State → State) : Host.Outcome State Fault Refusal → Host.Outcome State Fault Refusal
  | .next t => .next (f t)
  | .fault e => .fault e
  | .refused r => .refused r

end Sys2Proof.Machine
end

