-- ==== Sys2Proof/Certificates/Slice0/Obligations.lean ====
section
/-! DEFINITION. The statements for the provers. -/

open Sys2Proof Sys2Proof.Machine

/-! ## The command word -/

/-- Decoding an encoded well-formed command gives it back, with its operand at every value RND admits. -/
def Obligations.DecodeOfEncodeIsTheCommand : Prop :=
  ∀ i : Instr, i.wf = true → decode (encode i) = .ok i

/-- A word that decodes is the encoding of what it decodes to, which is well formed. -/
def Obligations.EncodeOfDecodeIsTheWord : Prop :=
  ∀ (w : Word) (i : Instr), decode w = .ok i → i.wf = true ∧ encode i = w

/-- 30_encoding.md R104: the fixed word of each command, ADD_ROUND_KEY's mask, pattern and RND field, and that a
word is legal exactly when it matches one row of the opcode map. -/
def Obligations.LegalWordsAreTheOpcodeRows : Prop :=
  (∀ i : Instr, (∀ n, i ≠ .addRoundKey n) → ∀ w : Word, decode w = .ok i ↔ w = i.opcode.setWidth 32) ∧
  (∀ (w : Word) (n : Nat), decode w = .ok (.addRoundKey n) ↔
    w &&& 0xFFFFF0FF = 0x0000000A ∧ n = ((w >>> 8) &&& 0xF).toNat) ∧
  (∀ w : Word, (∃ i, decode w = .ok i) ↔ ∃ r ∈ opRows, r.accepts w = true) ∧
  (∀ w : Word, ∀ r ∈ opRows, ∀ r' ∈ opRows, r.accepts w = true → r'.accepts w = true → r = r') ∧
  encode (.addRoundKey 3) = 0x0000030A

/-- Words written out from the opcode map of 30_encoding.md R103 and the format of R100 decode to the commands they
stand for, one of each of the fourteen rows. -/
def Obligations.SpelledWordsDecode : Prop :=
  decode 0x00000000 = .ok .nop ∧ decode 0x00000001 = .ok .expandKey ∧ decode 0x00000002 = .ok .encState ∧
  decode 0x00000003 = .ok .decState ∧ decode 0x00000004 = .ok .subBytes ∧ decode 0x00000005 = .ok .invSubBytes ∧
  decode 0x00000006 = .ok .shiftRows ∧ decode 0x00000007 = .ok .invShiftRows ∧
  decode 0x00000008 = .ok .mixColumns ∧ decode 0x00000009 = .ok .invMixColumns ∧
  decode 0x0000030A = .ok (.addRoundKey 3) ∧ decode 0x0000000B = .ok .gfMul ∧ decode 0x00000010 = .ok .msgStart ∧
  decode 0x00000011 = .ok .msgBlock

/-- 30_encoding.md R107: a CMD write with BUSY = 0 sets BUSY and LAST_OP and changes
nothing else of the core; the completion clears BUSY and keeps LAST_OP. -/
def Obligations.IssueSetsBusyAndCompletionClearsIt : Prop :=
  (∀ (s : State) (v : Word) (rest : List HostAction), s.rstN = true → s.pending = none →
    s.inputs = .write .word 0x004 v :: rest →
    ∃ n d, step s = .next { s with
      inputs := rest, pending := some ⟨v, n⟩, lastOp := v.extractLsb' 0 8, draws := d }) ∧
  (∀ (s : State) (v : Word), s.pending = some ⟨v, 0⟩ →
    ∃ t, step s = .next t ∧ busy t = false ∧ t.lastOp = s.lastOp)

/-- A turn at which a command is due is the completion of the command its word decodes to; at any other turn the
host acts, one turn of a command's wait being used up. -/
def Obligations.StepCompletesTheDecodedCommand : Prop :=
  (∀ (s : State) (v : Word) (i : Instr), s.pending = some ⟨v, 0⟩ → decode v = .ok i → step s = exec i s) ∧
  (∀ (s : State) (v : Word) (n : Nat), s.pending = some ⟨v, n + 1⟩ →
    step s = hostTurn { s with pending := some ⟨v, n⟩ }) ∧
  (∀ s : State, s.pending = none → step s = hostTurn s)

/-- 30_encoding.md R105 and 45_control.md R251: a word with a reserved opcode decodes to no command; a word that
decodes to none completes with ERR = 4 and DOUT_VALID = 0 and no other effect; and the rule's four examples. LAST_OP
is written at issue. -/
def Obligations.IllegalWordsCompleteWithErrorFour : Prop :=
  (∀ v : Word, (0x0C ≤ (v.extractLsb' 0 8).toNat ∧ (v.extractLsb' 0 8).toNat ≤ 0x0F) ∨
      0x12 ≤ (v.extractLsb' 0 8).toNat → ∃ e, decode v = .error e) ∧
  (∀ (s : State) (v : Word) (e : DecodeError), s.pending = some ⟨v, 0⟩ → decode v = .error e →
    step s = .next { s with err := 4, doutValid := false, pending := none }) ∧
  (∀ (s : State) (v : Word) (rest : List HostAction), s.rstN = true → s.pending = none →
    s.inputs = .write .word 0x004 v :: rest → ∃ t, step s = .next t ∧ t.lastOp = v.extractLsb' 0 8) ∧
  (∃ e, decode 0x0000000C = .error e) ∧ (∃ e, decode 0x00000104 = .error e) ∧
  (∃ e, decode 0x0001000A = .error e) ∧ decode 0x00000F0A = .ok (.addRoundKey 15) ∧
  (∀ s : State, s.nr.toNat < 15 → ∃ t, exec (.addRoundKey 15) s = .next t ∧ (t.err = 3 ∨ t.err = 5))

/-! ## NOP and GF_MUL -/

/-- 45_control.md R250: NOP clears ERR and changes nothing else, its issue sets BUSY and LAST_OP, and any other word
with its opcode is illegal. -/
def Obligations.NopOnlyClearsTheError : Prop :=
  decode 0x00000000 = .ok .nop ∧
  (∀ w : Word, w.extractLsb' 0 8 = 0x00 → w ≠ 0 → ∃ e, decode w = .error e) ∧
  (∀ (s : State) (rest : List HostAction), s.rstN = true → s.pending = none →
    s.inputs = .write .word 0x004 0x00000000 :: rest → ∃ t, step s = .next t ∧ busy t = true ∧ t.lastOp = 0x00) ∧
  (∀ s : State, exec .nop s = .next { s with err := 0, pending := none })

/-- 40_gf_arith.md R140: GF_RES becomes the product of A and B, the XOR of the multiples `A·x^i` over the set bits
`i` of B; nothing else changes but ERR; its issue sets BUSY and LAST_OP; any other word with its opcode is illegal;
and the rule's corner cases and example. -/
def Obligations.GfMulWritesTheProduct : Prop :=
  decode 0x0000000B = .ok .gfMul ∧
  (∀ w : Word, w.extractLsb' 0 8 = 0x0B → w ≠ 0x0000000B → ∃ e, decode w = .error e) ∧
  (∀ (s : State) (rest : List HostAction), s.rstN = true → s.pending = none →
    s.inputs = .write .word 0x004 0x0000000B :: rest → ∃ t, step s = .next t ∧ busy t = true ∧ t.lastOp = 0x0B) ∧
  (∀ s : State, exec .gfMul s = .next { s with
    gfRes := (List.range 8).foldl (fun p i =>
      if (s.gfOpnd.extractLsb' 8 8).getLsbD i then p ^^^ xtime^[i] (s.gfOpnd.extractLsb' 0 8) else p) 0,
    err := 0, pending := none }) ∧
  (∀ s t : State, exec .gfMul s = .next t →
    (s.gfOpnd.extractLsb' 0 8 = 0 ∨ s.gfOpnd.extractLsb' 8 8 = 0 → t.gfRes = 0) ∧
    (s.gfOpnd.extractLsb' 0 8 = 1 → t.gfRes = s.gfOpnd.extractLsb' 8 8) ∧
    (s.gfOpnd.extractLsb' 8 8 = 2 → t.gfRes = xtime (s.gfOpnd.extractLsb' 0 8)) ∧
    (s.gfOpnd = 0x0280 → t.gfRes = 0x1B) ∧ (s.gfOpnd = 0xFFFF → t.gfRes = 0x13) ∧
    (s.gfOpnd = 0x8357 → t.gfRes = 0xC1)) ∧
  (∀ s s' t t' : State, s'.gfOpnd = s.gfOpnd.extractLsb' 0 8 ++ s.gfOpnd.extractLsb' 8 8 →
    exec .gfMul s = .next t → exec .gfMul s' = .next t' → t'.gfRes = t.gfRes)

/-- `xtime` is doubling of the byte's number, reduced by 0x11B when the double has nine bits; and the laws of the
field: commutativity, associativity, distributivity over XOR, identity, zero and no zero divisors. -/
def Obligations.ProductObeysTheFieldLaws : Prop :=
  (∀ b : Byte, (xtime b).toNat = if 2 * b.toNat < 256 then 2 * b.toNat else (2 * b.toNat) ^^^ 0x11B) ∧
  (∀ a b : Byte, gmul a b = gmul b a) ∧
  (∀ a b c : Byte, gmul (gmul a b) c = gmul a (gmul b c)) ∧
  (∀ a b c : Byte, gmul a (b ^^^ c) = gmul a b ^^^ gmul a c) ∧
  (∀ a : Byte, gmul a 1 = a ∧ gmul a 0 = 0) ∧
  (∀ a b : Byte, gmul a b = 0 → a = 0 ∨ b = 0)

/-! ## Substitution tables -/

/-- 41_sbox.md R152: the inverse table is the inverse permutation of the forward one. -/
def Obligations.InverseTableInvertsTheTable : Prop :=
  ∀ a : Byte, invSbox (sbox a) = a ∧ sbox (invSbox a) = a

/-- The forward table is the inverse in GF(2^8) followed by the affine map, and has no fixed and no opposite fixed
point. -/
def Obligations.TableIsTheAffineInverse : Prop :=
  (∀ a : Byte, a ≠ 0 → ∃ b, gmul a b = 1 ∧
    sbox a = b ^^^ b.rotateLeft 1 ^^^ b.rotateLeft 2 ^^^ b.rotateLeft 3 ^^^ b.rotateLeft 4 ^^^ 0x63) ∧
  sbox 0 = 0x63 ∧ (∀ a : Byte, sbox a ≠ a ∧ sbox a ≠ a ^^^ 0xFF)

/-! ## Key schedule -/

/-- 42_key_schedule.md R164, with the round constant of word `i` that of round `i / Nk` (R163): the length of the
schedule, its first words, the recurrence of every later word, and its round keys, for the three variants. -/
def Obligations.KeyExpansionFollowsTheRecurrence : Prop :=
  ∀ (key : List Byte) (nk nr : Nat), variant key.length = some (nk, nr) →
    let w := (keyExpansion key nk nr).1
    let at' := fun i => w.getD i ⟨0, 0, 0, 0⟩
    w.length = 4 * (nr + 1) ∧
    (∀ i, i < nk → at' i =
      ⟨key.getD (4 * i) 0, key.getD (4 * i + 1) 0, key.getD (4 * i + 2) 0, key.getD (4 * i + 3) 0⟩) ∧
    (∀ i, nk ≤ i → i < 4 * (nr + 1) → at' i = xorCol (at' (i - nk))
      (if i % nk = 0 then
        let t := at' (i - 1)
        ⟨sbox t.b1 ^^^ xtime^[i / nk - 1] 0x01, sbox t.b2, sbox t.b3, sbox t.b0⟩
      else if nk = 8 ∧ i % nk = 4 then
        let t := at' (i - 1)
        ⟨sbox t.b0, sbox t.b1, sbox t.b2, sbox t.b3⟩
      else at' (i - 1))) ∧
    (∀ r, r ≤ nr → roundKey (scheduleStore w nr) r =
      ⟨at' (4 * r), at' (4 * r + 1), at' (4 * r + 2), at' (4 * r + 3)⟩)

/-- 42_key_schedule.md R171 and R172: a successful EXPAND_KEY fills RK0..RK59 with the schedule and zeros, sets NR
and KS_VALID, ends an open message, and changes nothing else but ERR and the trace. -/
def Obligations.ExpandKeyStoresTheSchedule : Prop :=
  ∀ (s : State) (nk nr : Nat), variant s.keyLen.toNat = some (nk, nr) →
    let out := keyExpansion (keyBytes s.key s.keyLen.toNat) nk nr
    ∃ rk : Vector Word 60,
      (∀ i : Fin 60, i.val < 4 * (nr + 1) → rk[i] = colWord (out.1.getD i.val ⟨0, 0, 0, 0⟩)) ∧
      (∀ i : Fin 60, 4 * (nr + 1) ≤ i.val → rk[i] = 0) ∧
      exec .expandKey s = .next { s with
        rk := rk, nr := BitVec.ofNat 4 nr, ksValid := true, msgActive := false, blocksLeft := 0, err := 0,
        pending := none, trace := s.trace ++ out.2 }

/-- 42_key_schedule.md R166: the schedule a successful EXPAND_KEY leaves depends on KEY_LEN and the first KEY_LEN
key bytes alone. -/
def Obligations.ScheduleDependsOnTheKeyAlone : Prop :=
  ∀ (s s' t t' : State) (nk nr : Nat), variant s.keyLen.toNat = some (nk, nr) → s'.keyLen = s.keyLen →
    (∀ j : Fin 8, j.val < nk → s'.key[j] = s.key[j]) →
    exec .expandKey s = .next t → exec .expandKey s' = .next t' → t'.rk = t.rk ∧ t'.nr = t.nr

/-- 60_exceptions.md R283: the events of KeyExpansion, in order, with the words they carry, and their counts; they
are emitted at every expansion, MSG_START included. -/
def Obligations.KeyScheduleEventsInOrder : Prop :=
  (∀ (key : List Byte) (nk nr : Nat), variant key.length = some (nk, nr) →
    let w := (keyExpansion key nk nr).1
    let at' := fun i => w.getD i ⟨0, 0, 0, 0⟩
    (keyExpansion key nk nr).2 = (List.range (4 * (nr + 1) - nk)).flatMap (fun k =>
      let i := nk + k
      let rot := rotWord (at' (i - 1))
      let sub := subWord rot
      let sum : Col := { sub with b0 := sub.b0 ^^^ rcon (i / nk) }
      if i % nk = 0 then
        [colEvent .ksRot i rot, colEvent .ksSub i sub, colEvent .ksRcon i sum, colEvent .ksWord i (at' i)]
      else if nk = 8 ∧ i % nk = 4 then [colEvent .ksSub i (subWord (at' (i - 1))), colEvent .ksWord i (at' i)]
      else [colEvent .ksWord i (at' i)]) ∧
    (nr = 10 → (keyExpansion key nk nr).2.length = 70) ∧ (nr = 12 → (keyExpansion key nk nr).2.length = 70) ∧
    (nr = 14 → (keyExpansion key nk nr).2.length = 79)) ∧
  (∀ (s : State) (nk nr : Nat), variant s.keyLen.toNat = some (nk, nr) → s.msgLen ≠ 0 → s.msgLen.toNat % 16 = 0 →
    ∃ t u, exec .expandKey s = .next t ∧ exec .msgStart s = .next u ∧
      t.trace = s.trace ++ (keyExpansion (keyBytes s.key s.keyLen.toNat) nk nr).2 ∧ u.trace = t.trace)

/-! ## Round engine -/

/-- 43_round_engine.md R180, R181: SUB_BYTES and INV_SUB_BYTES put each byte of STATE through a table, in place, and
change nothing else but ERR and one event. -/
def Obligations.SubstitutionCommandsActBytewise : Prop :=
  ∀ s : State,
    (∃ q : Quad, (∀ r c : Fin 4, byteK r (quadGet q c) = sbox (byteK r (quadGet s.state c))) ∧
      exec .subBytes s = .next { s with
        state := q, err := 0, pending := none, trace := s.trace ++ [⟨.blkSb, 0, q.w0 ++ q.w1 ++ q.w2 ++ q.w3⟩] }) ∧
    (∃ q : Quad, (∀ r c : Fin 4, byteK r (quadGet q c) = invSbox (byteK r (quadGet s.state c))) ∧
      exec .invSubBytes s = .next { s with
        state := q, err := 0, pending := none, trace := s.trace ++ [⟨.blkIsb, 0, q.w0 ++ q.w1 ++ q.w2 ++ q.w3⟩] })

/-- 43_round_engine.md R182, R183: SHIFT_ROWS and INV_SHIFT_ROWS rotate row `r` of STATE by `r` columns, and change
nothing else but ERR and one event; and the flat permutations. -/
def Obligations.RowShiftCommandsRotateRows : Prop :=
  (∀ s : State,
    (∃ q : Quad, (∀ r c : Fin 4, byteK r (quadGet q c) = byteK r (quadGet s.state (c + r))) ∧
      exec .shiftRows s = .next { s with
        state := q, err := 0, pending := none, trace := s.trace ++ [⟨.blkSr, 0, q.w0 ++ q.w1 ++ q.w2 ++ q.w3⟩] }) ∧
    (∃ q : Quad, (∀ r c : Fin 4, byteK r (quadGet q c) = byteK r (quadGet s.state (c - r))) ∧
      exec .invShiftRows s = .next { s with
        state := q, err := 0, pending := none,
        trace := s.trace ++ [⟨.blkIsr, 0, q.w0 ++ q.w1 ++ q.w2 ++ q.w3⟩] })) ∧
  (∀ b0 b1 b2 b3 b4 b5 b6 b7 b8 b9 b10 b11 b12 b13 b14 b15 : Byte,
    let s : Block := ⟨⟨b0, b1, b2, b3⟩, ⟨b4, b5, b6, b7⟩, ⟨b8, b9, b10, b11⟩, ⟨b12, b13, b14, b15⟩⟩
    shiftRows s = ⟨⟨b0, b5, b10, b15⟩, ⟨b4, b9, b14, b3⟩, ⟨b8, b13, b2, b7⟩, ⟨b12, b1, b6, b11⟩⟩ ∧
    invShiftRows s = ⟨⟨b0, b13, b10, b7⟩, ⟨b4, b1, b14, b11⟩, ⟨b8, b5, b2, b15⟩, ⟨b12, b9, b6, b3⟩⟩)

/-- 43_round_engine.md R184: MIX_COLUMNS transforms each column of STATE by the matrix of 2, 3, 1, 1, and changes
nothing else but ERR and one event. -/
def Obligations.MixColumnsMultipliesEachColumn : Prop :=
  ∀ s : State, ∃ q : Quad,
    (∀ k c : Fin 4, let a := fun j : Fin 4 => byteK j (quadGet s.state c)
      byteK k (quadGet q c) = gmul 2 (a k) ^^^ gmul 3 (a (k + 1)) ^^^ a (k + 2) ^^^ a (k + 3)) ∧
    exec .mixColumns s = .next { s with
      state := q, err := 0, pending := none, trace := s.trace ++ [⟨.blkMc, 0, q.w0 ++ q.w1 ++ q.w2 ++ q.w3⟩] }

/-- INV_MIX_COLUMNS transforms each column of STATE by the matrix of 14, 11, 13, 9 in the same direction, and
changes nothing else but ERR and one event. -/
def Obligations.InvMixColumnsMultipliesEachColumn : Prop :=
  ∀ s : State, ∃ q : Quad,
    (∀ k c : Fin 4, let a := fun j : Fin 4 => byteK j (quadGet s.state c)
      byteK k (quadGet q c) =
        gmul 14 (a k) ^^^ gmul 11 (a (k + 1)) ^^^ gmul 13 (a (k + 2)) ^^^ gmul 9 (a (k + 3))) ∧
    exec .invMixColumns s = .next { s with
      state := q, err := 0, pending := none, trace := s.trace ++ [⟨.blkImc, 0, q.w0 ++ q.w1 ++ q.w2 ++ q.w3⟩] }

/-- 43_round_engine.md R186, and at the command: AddRoundKey XORs byte by byte and is its own inverse; ADD_ROUND_KEY r
with a schedule and `r ≤ NR` XORs bytes of RK[4r..4r+3]
into STATE and changes nothing else but ERR and one event; done twice it restores STATE. NR is at most 14 in every
state a run reaches (10_state.md R37). -/
def Obligations.AddRoundKeyXorsTheRoundKey : Prop :=
  (∀ s k : Block, (∀ r c : Fin 4, blockAt (addRoundKey s k) r c = blockAt s r c ^^^ blockAt k r c) ∧
    addRoundKey (addRoundKey s k) k = s) ∧
  ∀ (s : State) (r : Nat), s.ksValid = true → r ≤ s.nr.toNat → s.nr.toNat ≤ 14 →
    ∃ (q : Quad) (t : State),
      (∀ k c : Fin 4, byteK k (quadGet q c) =
        byteK k (quadGet s.state c) ^^^ byteK k (s.rk[4 * r + c.val]?.getD 0)) ∧
      exec (.addRoundKey r) s = .next t ∧
      t = { s with
        state := q, err := 0, pending := none,
        trace := s.trace ++ [⟨.blkArk, BitVec.ofNat 8 r, q.w0 ++ q.w1 ++ q.w2 ++ q.w3⟩] } ∧
      ∃ u, exec (.addRoundKey r) t = .next u ∧ u.state = s.state

/-- 43_round_engine.md R187: the round transformations and their inverses undo each other on every block. -/
def Obligations.RoundTransformationsAreInverted : Prop :=
  ∀ s : Block,
    (invSubBytes (subBytes s) = s ∧ subBytes (invSubBytes s) = s) ∧
    (invShiftRows (shiftRows s) = s ∧ shiftRows (invShiftRows s) = s) ∧
    (invMixColumns (mixColumns s) = s ∧ mixColumns (invMixColumns s) = s)

/-- 43_round_engine.md R190: Cipher is AddRoundKey 0, the middle rounds, and the final round without MixColumns, with
one event after each transformation. `st r` is the block after round `r`. -/
def Obligations.CipherRunsTheRoundsInOrder : Prop :=
  ∀ (key : Nat → Block) (nr : Nat) (s : Block), 1 ≤ nr → ∃ st : Nat → Block,
    st 0 = addRoundKey s (key 0) ∧
    (∀ r, 1 ≤ r → r < nr → st r = addRoundKey (mixColumns (shiftRows (subBytes (st (r - 1))))) (key r)) ∧
    st nr = addRoundKey (shiftRows (subBytes (st (nr - 1)))) (key nr) ∧
    (cipher key nr s).1 = st nr ∧
    (cipher key nr s).2 =
      blockEvent .blkArk 0 (st 0) ::
        ((List.range (nr - 1)).flatMap fun k =>
          let b := st k
          [blockEvent .blkSb (k + 1) (subBytes b), blockEvent .blkSr (k + 1) (shiftRows (subBytes b)),
            blockEvent .blkMc (k + 1) (mixColumns (shiftRows (subBytes b))),
            blockEvent .blkArk (k + 1) (st (k + 1))]) ++
        [blockEvent .blkSb nr (subBytes (st (nr - 1))), blockEvent .blkSr nr (shiftRows (subBytes (st (nr - 1)))),
          blockEvent .blkArk nr (st nr)] ∧
    (cipher key nr s).2.length = 4 * nr

/-- 43_round_engine.md R191: InvCipher uses the round keys in reverse order, AddRoundKey before InvMixColumns in each
middle round, with the index of the round key in each event. `st k` is the block after the round of round key
`k`. -/
def Obligations.InvCipherRunsTheRoundsInReverse : Prop :=
  ∀ (key : Nat → Block) (nr : Nat) (s : Block), 1 ≤ nr → ∃ st : Nat → Block,
    st nr = addRoundKey s (key nr) ∧
    (∀ i, 1 ≤ i → i < nr → st (nr - i) =
      invMixColumns (addRoundKey (invSubBytes (invShiftRows (st (nr - i + 1)))) (key (nr - i)))) ∧
    st 0 = addRoundKey (invSubBytes (invShiftRows (st 1))) (key 0) ∧
    (invCipher key nr s).1 = st 0 ∧
    (invCipher key nr s).2 =
      blockEvent .blkArk nr (st nr) ::
        ((List.range (nr - 1)).flatMap fun j =>
          let k := nr - (j + 1)
          let b := st (k + 1)
          [blockEvent .blkIsr k (invShiftRows b), blockEvent .blkIsb k (invSubBytes (invShiftRows b)),
            blockEvent .blkArk k (addRoundKey (invSubBytes (invShiftRows b)) (key k)),
            blockEvent .blkImc k (st k)]) ++
        [blockEvent .blkIsr 0 (invShiftRows (st 1)), blockEvent .blkIsb 0 (invSubBytes (invShiftRows (st 1))),
          blockEvent .blkArk 0 (st 0)] ∧
    (invCipher key nr s).2.length = 4 * nr

/-- With a schedule, ENC_STATE and DEC_STATE replace STATE by Cipher and InvCipher of it under RK and NR, append
their events, and change nothing else but ERR and the working block, whose value is free. -/
def Obligations.BlockCommandsReplaceTheState : Prop :=
  ∀ s : State, s.ksValid = true →
    (let out := cipher (roundKey s.rk) s.nr.toNat (blkOf s.state)
      ∃ w d, exec .encState s = .next { s with
        state := quadOf out.1, err := 0, pending := none, trace := s.trace ++ out.2, work := w, draws := d }) ∧
    (let out := invCipher (roundKey s.rk) s.nr.toNat (blkOf s.state)
      ∃ w d, exec .decState s = .next { s with
        state := quadOf out.1, err := 0, pending := none, trace := s.trace ++ out.2, work := w, draws := d })

/-- 43_round_engine.md R192: InvCipher undoes Cipher, for every block, every round count and every round keys; and
Cipher undoes InvCipher. -/
def Obligations.InvCipherUndoesCipher : Prop :=
  ∀ (key : Nat → Block) (nr : Nat) (s : Block),
    (invCipher key nr (cipher key nr s).1).1 = s ∧ (cipher key nr (invCipher key nr s).1).1 = s

/-- 43_round_engine.md R209: the single-step commands, in Cipher's order, leave the STATE that one ENC_STATE leaves,
and in InvCipher's order that of DEC_STATE; the events carry the same kinds and data. -/
def Obligations.SingleStepsComposeToTheBlockCommands : Prop :=
  ∀ s : State, s.ksValid = true → (s.nr = 10 ∨ s.nr = 12 ∨ s.nr = 14) →
    (∃ t u et eu, execAll (encrypterCommands s.nr.toNat) s = .next t ∧ exec .encState s = .next u ∧
      t.state = u.state ∧ t.trace = s.trace ++ et ∧ u.trace = s.trace ++ eu ∧
      et.map (fun e => (e.kind, e.data)) = eu.map (fun e => (e.kind, e.data))) ∧
    (∃ t u et eu, execAll (decrypterCommands s.nr.toNat) s = .next t ∧ exec .decState s = .next u ∧
      t.state = u.state ∧ t.trace = s.trace ++ et ∧ u.trace = s.trace ++ eu ∧
      et.map (fun e => (e.kind, e.data)) = eu.map (fun e => (e.kind, e.data)))

/-! ## Mode controller -/

/-- 44_mode_controller.md R223, with the rest of MSG_START's success: CV is IV or zeros by IV_EN, direction and mode
are latched from CTRL, the schedule is stored, and the message is open with MSG_LEN / 16 blocks. -/
def Obligations.MsgStartOpensAMessage : Prop :=
  ∀ (s : State) (nk nr : Nat), s.msgLen ≠ 0 → s.msgLen.toNat % 16 = 0 →
    variant s.keyLen.toNat = some (nk, nr) →
    let out := keyExpansion (keyBytes s.key s.keyLen.toNat) nk nr
    ∃ (t : State), exec .msgStart s = .next t ∧
      (s.ctrl.getLsbD 2 = true → t.cv = s.iv) ∧ (s.ctrl.getLsbD 2 = false → t.cv = ⟨0, 0, 0, 0⟩) ∧
      (s.ctrl.getLsbD 0 = true ↔ t.msgDir = .decrypt) ∧ (s.ctrl.getLsbD 1 = true ↔ t.msgMode = .cbc) ∧
      t.blocksLeft.toNat = s.msgLen.toNat / 16 ∧
      t = { s with
        rk := scheduleStore out.1 nr, nr := BitVec.ofNat 4 nr, ksValid := true, cv := t.cv, msgDir := t.msgDir,
        msgMode := t.msgMode, blocksLeft := t.blocksLeft, msgActive := true, doutValid := false, err := 0,
        pending := none, trace := s.trace ++ out.2 }

/-- 44_mode_controller.md R224: an illegal word is reported before anything else, the length before the key; a
failed MSG_START also ends an open message and changes nothing else. -/
def Obligations.MsgStartChecksInOrder : Prop :=
  (∀ (s : State) (v : Word) (e : DecodeError), v.extractLsb' 0 8 = 0x10 → decode v = .error e →
    ∃ t, complete v s = .next t ∧ t.err = 4) ∧
  (∀ s : State, s.msgLen = 0 ∨ s.msgLen.toNat % 16 ≠ 0 →
    exec .msgStart s = .next { s with
      msgActive := false, blocksLeft := 0, err := 1, doutValid := false, pending := none }) ∧
  (∀ s : State, s.msgLen ≠ 0 → s.msgLen.toNat % 16 = 0 → s.keyLen ≠ 16 → s.keyLen ≠ 24 → s.keyLen ≠ 32 →
    exec .msgStart s = .next { s with
      msgActive := false, blocksLeft := 0, err := 2, doutValid := false, pending := none })

/-- 44_mode_controller.md R231..R234: what MSG_BLOCK in an open message writes to DOUT and CV, by direction and mode,
and that it changes nothing else but the message's count, the status fields of its success, the trace and the
working block, whose value is free. -/
def Obligations.MsgBlockChainsByDirectionAndMode : Prop :=
  ∀ s : State, s.msgActive = true →
    let key := roundKey s.rk
    let nr := s.nr.toNat
    let p := blkOf s.din
    let cv := blkOf s.cv
    ∃ t, exec .msgBlock s = .next t ∧
      (s.msgDir = .encrypt → s.msgMode = .ecb →
        blkOf t.dout = (cipher key nr p).1 ∧ t.cv = s.cv ∧ t.trace = s.trace ++ (cipher key nr p).2) ∧
      (s.msgDir = .encrypt → s.msgMode = .cbc →
        blkOf t.dout = (cipher key nr (xorBlock p cv)).1 ∧ t.cv = t.dout ∧
        t.trace = s.trace ++ blockEvent .modeXor 0 (xorBlock p cv) :: (cipher key nr (xorBlock p cv)).2) ∧
      (s.msgDir = .decrypt → s.msgMode = .ecb →
        blkOf t.dout = (invCipher key nr p).1 ∧ t.cv = s.cv ∧ t.trace = s.trace ++ (invCipher key nr p).2) ∧
      (s.msgDir = .decrypt → s.msgMode = .cbc →
        blkOf t.dout = xorBlock (invCipher key nr p).1 cv ∧ t.cv = s.din ∧
        t.trace = s.trace ++ ((invCipher key nr p).2 ++ [blockEvent .modeXor 0 (blkOf t.dout)])) ∧
      t = { s with
        dout := t.dout, cv := t.cv, trace := t.trace, work := t.work, draws := t.draws,
        blocksLeft := s.blocksLeft - 1, msgActive := decide (s.blocksLeft ≠ 1), doutValid := true, err := 0,
        pending := none }

/-- 44_mode_controller.md R235: the block that brings BLOCKS_LEFT to 0 closes the message; a further MSG_BLOCK fails
with ERR = 6 and changes nothing else but DOUT_VALID. -/
def Obligations.LastBlockEndsTheMessage : Prop :=
  (∀ s : State, s.msgActive = true → s.blocksLeft = 1 →
    ∃ t, exec .msgBlock s = .next t ∧ t.msgActive = false ∧ t.blocksLeft = 0 ∧ t.doutValid = true ∧
      exec .msgBlock t = .next { t with err := 6, doutValid := false, pending := none }) ∧
  (∀ s : State, s.msgActive = false →
    exec .msgBlock s = .next { s with err := 6, doutValid := false, pending := none })

/-- 44_mode_controller.md R238: a message encrypted, then its outputs decrypted with the same key, mode and IV
setting, gives the blocks back, in ECB and in CBC. -/
def Obligations.DecryptedMessageIsTheOriginal : Prop :=
  ∀ (s : State) (ps : List Block) (nk nr : Nat), s.msgLen ≠ 0 → s.msgLen.toNat = 16 * ps.length →
    variant s.keyLen.toNat = some (nk, nr) → s.ctrl.getLsbD 0 = false →
    ∃ t cs, passMessage ps s = some (t, cs) ∧
      ∃ u, passMessage cs { t with ctrl := t.ctrl ||| 1 } = some (u, ps)

/-- Of 44_mode_controller.md R237, the part that says what does not change: in ECB each output depends on the input
block of its own place alone; in CBC encryption no output depends on a later input block. -/
def Obligations.OutputsDependOnNoLaterBlock : Prop :=
  (∀ (s s' : State) (ps ps' cs cs' : List Block) (t t' : State) (j : Nat), s.msgMode = .ecb → s'.msgMode = .ecb →
    s'.msgDir = s.msgDir → s'.rk = s.rk → s'.nr = s.nr → ps[j]? = ps'[j]? →
    passBlocks ps s = some (t, cs) → passBlocks ps' s' = some (t', cs') → cs[j]? = cs'[j]?) ∧
  (∀ (s s' : State) (ps ps' cs cs' : List Block) (t t' : State) (j : Nat), s'.msgMode = s.msgMode →
    s'.msgDir = s.msgDir → s'.rk = s.rk → s'.nr = s.nr → s'.cv = s.cv → ps.take (j + 1) = ps'.take (j + 1) →
    passBlocks ps s = some (t, cs) → passBlocks ps' s' = some (t', cs') → cs[j]? = cs'[j]?)

/-- Of 44_mode_controller.md R236 and 30_encoding.md R102, for the programs of bytes: the blocks of an input are its
bytes in order; the host program of a message, run from any idle state, reads back the blocks of the chaining rules in
order and ends with ERR = 0; that of `expand_key` reads back the schedule; and none of them faults. For an input or a
key the core rejects the program ends with the core's error and reads nothing, which is the model's driver's choice (log
entry 13). -/
def Obligations.MessageProgramReadsTheChainedBlocks : Prop :=
  (∀ bs : List Byte, bs.length % 16 = 0 → (blocksOf bs).length = bs.length / 16 ∧
    ∀ (j : Nat) (r c : Fin 4), j < bs.length / 16 →
      (blocksOf bs)[j]?.map (fun b => blockAt b r c) = bs[16 * j + 4 * c.val + r.val]?) ∧
  (∀ (s : State) (dir : Dir) (mode : Mode) (input key : List Byte) (iv : Option Block) (nk nr : Nat),
    s.rstN = true → s.pending = none → s.inputs = messageProgram dir mode input key iv →
    variant key.length = some (nk, nr) → 0 < input.length → input.length % 16 = 0 → input.length < 2 ^ 32 →
    ∃ k t, Host.Core.run core k s = .next t ∧ t.inputs = [] ∧ t.pending = none ∧ t.err = 0 ∧
      t.reads = s.reads ++ blockWords (chainBlocks (roundKey (scheduleStore (keyExpansion key nk nr).1 nr)) nr dir
        mode (iv.getD zeroBlock) (blocksOf input))) ∧
  (∀ (s : State) (dir : Dir) (mode : Mode) (input key : List Byte) (iv : Option Block),
    s.rstN = true → s.pending = none → s.inputs = messageProgram dir mode input key iv → input.length < 2 ^ 32 →
    variant key.length = none ∨ input.length = 0 ∨ input.length % 16 ≠ 0 →
    ∃ k t, Host.Core.run core k s = .next t ∧ t.inputs = [] ∧ t.pending = none ∧ t.reads = s.reads ∧
      t.err = if input.length = 0 ∨ input.length % 16 ≠ 0 then 1 else 2) ∧
  (∀ (s : State) (key : List Byte), s.rstN = true → s.pending = none → s.inputs = expandKeyProgram key →
    ∃ k t, Host.Core.run core k s = .next t ∧ t.inputs = [] ∧ t.pending = none ∧
      (∀ nk nr, variant key.length = some (nk, nr) →
        t.err = 0 ∧ t.reads = s.reads ++ (keyExpansion key nk nr).1.map colWord) ∧
      (variant key.length = none → t.err = 2 ∧ t.reads = s.reads))

/-! ## Errors and status -/

/-- 60_exceptions.md R260, R264: the code each completion leaves in ERR, by cause, and that there is no other. -/
def Obligations.ErrorCodesHaveTheirCauses : Prop :=
  ∀ (v : Word) (s : State), ∃ t, complete v s = .next t ∧ t.err.toNat ≤ 6 ∧
    (t.err = 1 ↔ decode v = .ok .msgStart ∧ (s.msgLen = 0 ∨ s.msgLen.toNat % 16 ≠ 0)) ∧
    (t.err = 2 ↔ (decode v = .ok .expandKey ∨
        decode v = .ok .msgStart ∧ s.msgLen ≠ 0 ∧ s.msgLen.toNat % 16 = 0) ∧
      s.keyLen ≠ 16 ∧ s.keyLen ≠ 24 ∧ s.keyLen ≠ 32) ∧
    (t.err = 3 ↔ (decode v = .ok .encState ∨ decode v = .ok .decState ∨ ∃ r, decode v = .ok (.addRoundKey r)) ∧
      s.ksValid = false) ∧
    (t.err = 4 ↔ ∃ e, decode v = .error e) ∧
    (t.err = 5 ↔ ∃ r, decode v = .ok (.addRoundKey r) ∧ s.ksValid = true ∧ s.nr.toNat < r) ∧
    (t.err = 6 ↔ decode v = .ok .msgBlock ∧ s.msgActive = false)

/-- 60_exceptions.md R261, R262: a command that ends with an error changes ERR, DOUT_VALID and BUSY alone, and a
failed MSG_START also MSG_ACTIVE and BLOCKS_LEFT; it emits no event. -/
def Obligations.FailedCommandsHaveNoPartialResult : Prop :=
  ∀ (v : Word) (s t : State), complete v s = .next t → t.err ≠ 0 →
    (decode v ≠ .ok .msgStart → t = { s with err := t.err, doutValid := false, pending := none }) ∧
    (decode v = .ok .msgStart → t = { s with
      err := t.err, doutValid := false, pending := none, msgActive := false, blocksLeft := 0 })

/-- 60_exceptions.md R263: no completion depends on the error before it, and a failed command repeated on the state
it left fails again with the same code. -/
def Obligations.ErrorsAreNotSticky : Prop :=
  (∀ (v : Word) (s : State) (e : BitVec 4), complete v { s with err := e } = complete v s) ∧
  (∀ (v : Word) (s t : State), complete v s = .next t → t.err ≠ 0 → complete v t = .next t)

/-- Which registers each command may write, over all commands: the operand registers by none; GF_RES by GF_MUL; RK,
NR and KS_VALID by EXPAND_KEY and MSG_START; DOUT by MSG_BLOCK; CV, MSG_DIR and MSG_MODE by the mode controller; STATE
by the round engine; and no command touches the host's side or LAST_OP. -/
def Obligations.CommandsWriteTheirOwnRegisters : Prop :=
  ∀ (i : Instr) (s : State), ∃ t, exec i s = .next t ∧
    (t.ctrl = s.ctrl ∧ t.keyLen = s.keyLen ∧ t.msgLen = s.msgLen ∧ t.gfOpnd = s.gfOpnd ∧ t.key = s.key ∧
      t.iv = s.iv ∧ t.din = s.din ∧ t.lastOp = s.lastOp ∧ t.rstN = s.rstN ∧ t.inputs = s.inputs ∧
      t.reads = s.reads) ∧
    t.pending = none ∧
    (i ≠ .gfMul → t.gfRes = s.gfRes) ∧
    (i ≠ .expandKey → i ≠ .msgStart → t.rk = s.rk ∧ t.nr = s.nr ∧ t.ksValid = s.ksValid) ∧
    (i ≠ .msgBlock → t.dout = s.dout) ∧
    (i ≠ .msgStart → i ≠ .msgBlock → t.cv = s.cv) ∧
    (i ≠ .msgStart → t.msgDir = s.msgDir ∧ t.msgMode = s.msgMode) ∧
    (i ≠ .expandKey → i ≠ .msgStart → i ≠ .msgBlock → t.msgActive = s.msgActive ∧ t.blocksLeft = s.blocksLeft) ∧
    (i = .nop ∨ i = .gfMul ∨ i = .expandKey ∨ i = .msgStart ∨ i = .msgBlock → t.state = s.state)

/-- 44_mode_controller.md R239's only path into CV, and those into RK and DOUT, over all steps: CV changes only at the
completion of MSG_START or MSG_BLOCK, RK only at that of EXPAND_KEY or MSG_START, DOUT only at that of MSG_BLOCK, or
when `rst_n` is driven low. -/
def Obligations.OnlyTheirCommandsReachCvRkAndDout : Prop :=
  ∀ s t : State, step s = .next t →
    let due := fun i => ∃ v, s.pending = some ⟨v, 0⟩ ∧ decode v = .ok i
    let pulled := (∀ v, s.pending ≠ some ⟨v, 0⟩) ∧ ∃ rest, s.inputs = .driveRst false :: rest
    (t.cv ≠ s.cv → due .msgStart ∨ due .msgBlock ∨ pulled) ∧
    (t.rk ≠ s.rk → due .expandKey ∨ due .msgStart ∨ pulled) ∧
    (t.dout ≠ s.dout → due .msgBlock ∨ pulled)

/-- 10_state.md R37: the invariants of STATUS hold at reset, and every step from any state that has them keeps them.
-/
def Obligations.StepsKeepTheStatusInvariants : Prop :=
  StatusInv State.reset ∧ ∀ s t : State, StatusInv s → step s = .next t → StatusInv t

/-- 10_state.md R36 (KS_VALID), R42: every step keeps RK a complete schedule for NR rounds while KS_VALID = 1 and all
zero while KS_VALID = 0; and while `rst_n` is low no command is in progress. -/
def Obligations.StepsKeepTheScheduleWhole : Prop :=
  ∀ s t : State, ScheduleInv s → ResetInv s → step s = .next t → ScheduleInv t ∧ ResetInv t

/-- The invariants hold right after reset. -/
def Obligations.ResetMeetsTheInvariants : Prop :=
  StatusInv State.reset ∧ ScheduleInv State.reset ∧ ResetInv State.reset

/-! ## Reset -/

/-- 70_reset_and_hazards.md R292: after reset the core is idle, with no key and no message, and every register of the
window reads 0; and an idle core begins a command only at the host's write of CMD. -/
def Obligations.ResetStateIsIdleAndZero : Prop :=
  busy State.reset = false ∧ (∀ off : BitVec 9, busRead off State.reset = 0) ∧
  State.reset.ksValid = false ∧ State.reset.msgActive = false ∧ State.reset.err = 0 ∧
  step State.reset = .next State.reset ∧
  (∀ s t : State, s.pending = none → step s = .next t → busy t = true →
    ∃ v rest, s.inputs = .write .word 0x004 v :: rest)

/-- Of 70_reset_and_hazards.md R290: `rst_n` driven low gives every register its reset value, abandons a command in
progress and emits nothing. The working block is then any value. What was read and emitted before, and the host's
turns to come, are the model's record of the outside (log entry 6). -/
def Obligations.PinResetClearsTheCore : Prop :=
  ∀ (s : State) (rest : List HostAction), (∀ v, s.pending ≠ some ⟨v, 0⟩) → s.inputs = .driveRst false :: rest →
    ∃ w d, step s = .next { State.reset with
      rstN := false, work := w, trace := s.trace, inputs := rest, reads := s.reads, draws := d }

/-- While `rst_n` is low every access stops the machine; once it is driven high the core answers from its reset
values. The stop is the model's treatment (93_implementation_defined.md U4). -/
def Obligations.AccessesDuringResetFault : Prop :=
  (∀ (s : State) (a : HostAction) (rest : List HostAction), s.rstN = false → s.pending = none →
    s.inputs = a :: rest → (∃ z off, a = .read z off) ∨ (∃ z off v, a = .write z off v) ∨ a = .poll →
    step s = .fault .accessDuringReset) ∧
  (∀ (s : State) (rest : List HostAction), s.rstN = false → s.pending = none →
    s.inputs = .driveRst true :: rest → step s = .next { s with rstN := true, inputs := rest })

/-! ## The bus -/

/-- Of 10_state.md R22, R23 and R36, with BUSY = 0: what a read of each register returns, STATUS by its fields; a
read-write register reads back the last value written with its reserved bits 0, a write of a read-only register changes
nothing, and CMD reads 0. -/
def Obligations.RegistersKeepTheirAccessKinds : Prop :=
  (∀ s : State, s.pending = none → let v := busRead 0x008 s;
    v.getLsbD 0 = false ∧ v.getLsbD 1 = s.ksValid ∧ v.getLsbD 2 = s.msgActive ∧ v.getLsbD 3 = s.doutValid ∧
    v.extractLsb' 4 4 = 0 ∧ v.extractLsb' 8 4 = s.err ∧ v.extractLsb' 12 4 = s.nr ∧
    (v.getLsbD 16 = true ↔ s.msgDir = .decrypt) ∧ (v.getLsbD 17 = true ↔ s.msgMode = .cbc) ∧
    v.extractLsb' 18 6 = 0 ∧ v.extractLsb' 24 8 = s.lastOp) ∧
  (∀ s : State,
    (busRead 0x000 s).toNat = s.ctrl.toNat ∧ busRead 0x004 s = 0 ∧ (busRead 0x00C s).toNat = s.keyLen.toNat ∧
    busRead 0x010 s = s.msgLen ∧ (busRead 0x014 s).toNat = s.blocksLeft.toNat ∧
    (busRead 0x018 s).toNat = s.gfOpnd.toNat ∧ (busRead 0x01C s).toNat = s.gfRes.toNat ∧
    (∀ j : Fin 8, busRead (BitVec.ofNat 9 (0x020 + 4 * j.val)) s = s.key[j]) ∧
    (∀ j : Fin 4, busRead (BitVec.ofNat 9 (0x040 + 4 * j.val)) s = quadGet s.iv j ∧
      busRead (BitVec.ofNat 9 (0x050 + 4 * j.val)) s = quadGet s.din j ∧
      busRead (BitVec.ofNat 9 (0x060 + 4 * j.val)) s = quadGet s.dout j ∧
      busRead (BitVec.ofNat 9 (0x070 + 4 * j.val)) s = quadGet s.state j ∧
      busRead (BitVec.ofNat 9 (0x080 + 4 * j.val)) s = quadGet s.cv j) ∧
    (∀ i : Fin 60, busRead (BitVec.ofNat 9 (0x100 + 4 * i.val)) s = s.rk[i])) ∧
  (∀ (s : State) (v : Word),
    busRead 0x000 (busWrite 0x000 v s) = v &&& 0x00000007 ∧
    busRead 0x00C (busWrite 0x00C v s) = v &&& 0x000000FF ∧
    busRead 0x010 (busWrite 0x010 v s) = v ∧
    busRead 0x018 (busWrite 0x018 v s) = v &&& 0x0000FFFF ∧
    (∀ off : BitVec 9, off.extractLsb' 0 2 = 0 →
      (0x020 ≤ off.toNat ∧ off.toNat ≤ 0x05C) ∨ (0x070 ≤ off.toNat ∧ off.toNat ≤ 0x07C) →
      busRead off (busWrite off v s) = v)) ∧
  (∀ (s : State) (v : Word) (off : BitVec 9), off.extractLsb' 0 2 = 0 →
    off = 0x008 ∨ off = 0x014 ∨ off = 0x01C ∨ (0x060 ≤ off.toNat ∧ off.toNat ≤ 0x06C) ∨
      (0x080 ≤ off.toNat ∧ off.toNat ≤ 0x08C) ∨ (0x100 ≤ off.toNat ∧ off.toNat ≤ 0x1EC) →
    busWrite off v s = s)

/-- A write of one register other than CMD leaves what every other register reads unchanged. -/
def Obligations.RegisterWritesStayApart : Prop :=
  ∀ (s : State) (v : Word) (off off' : BitVec 9), off.extractLsb' 0 2 = 0 → off'.extractLsb' 0 2 = 0 →
    off ≠ off' → off ≠ 0x004 → busRead off' (busWrite off v s) = busRead off' s

/-- Of 20_memory.md R71: an access that is not an aligned 32-bit one is refused with the bus's error. That it is so
while BUSY = 1 too, where a write also meets 70_reset_and_hazards.md R300, is the model's choice (log entry 5). -/
def Obligations.AccessesMustBeAlignedWords : Prop :=
  ∀ (s : State) (z : AccessSize) (off : BitVec 9) (v : Word) (rest : List HostAction), s.rstN = true →
    (∀ w, s.pending ≠ some ⟨w, 0⟩) → z ≠ .word ∨ off.extractLsb' 0 2 ≠ 0 →
    s.inputs = .read z off :: rest ∨ s.inputs = .write z off v :: rest → step s = .fault .busError

/-- 20_memory.md R72: a read of a reserved offset returns 0, a write there is ignored, and neither is an error. -/
def Obligations.ReservedOffsetsReadZero : Prop :=
  ∀ (s : State) (off : BitVec 9) (v : Word) (rest : List HostAction), s.rstN = true → s.pending = none →
    off.extractLsb' 0 2 = 0 →
    (0x090 ≤ off.toNat ∧ off.toNat ≤ 0x0FC) ∨ (0x1F0 ≤ off.toNat ∧ off.toNat ≤ 0x1FC) →
    (s.inputs = .read .word off :: rest → step s = .next { s with inputs := rest, reads := s.reads ++ [0] }) ∧
    (s.inputs = .write .word off v :: rest → step s = .next { s with inputs := rest })

/-- 20_memory.md R79: with BUSY = 0 a step of a read changes nothing but the record of what it returned, a step of a
write is the write, a write of a register other than CMD is the same once and twice and changes no more than the host's
read-write registers, and a write of CMD issues, every time. -/
def Obligations.AccessesHaveOnlyTheirSideEffects : Prop :=
  (∀ (s : State) (off : BitVec 9) (rest : List HostAction), s.rstN = true → s.pending = none →
    off.extractLsb' 0 2 = 0 → s.inputs = .read .word off :: rest →
    step s = .next { s with inputs := rest, reads := s.reads ++ [busRead off s] }) ∧
  (∀ (s : State) (off : BitVec 9) (v : Word) (rest : List HostAction), s.rstN = true → s.pending = none →
    off.extractLsb' 0 2 = 0 → s.inputs = .write .word off v :: rest →
    step s = .next (busWrite off v { s with inputs := rest })) ∧
  (∀ (s : State) (off : BitVec 9) (v : Word), off.extractLsb' 0 2 = 0 → off ≠ 0x004 →
    busWrite off v (busWrite off v s) = busWrite off v s ∧
    (let t := busWrite off v s;
      t = { s with
        ctrl := t.ctrl, keyLen := t.keyLen, msgLen := t.msgLen, gfOpnd := t.gfOpnd, key := t.key, iv := t.iv,
        din := t.din, state := t.state })) ∧
  (∀ (s : State) (v : Word), ∃ n, (busWrite 0x004 v s).pending = some ⟨v, n⟩)

/-- Of 70_reset_and_hazards.md R298: while BUSY = 1 a read of STATUS has BUSY = 1 and the new LAST_OP, its other bits
and every other register's value being free; nothing else of the core changes. That a read of CMD and of a reserved
offset is free too is the model's reading (log entry 4). -/
def Obligations.ReadsWhileBusyAreFree : Prop :=
  ∀ (s : State) (w : Word) (n : Nat) (off : BitVec 9) (rest : List HostAction), s.rstN = true →
    s.pending = some ⟨w, n + 1⟩ → off.extractLsb' 0 2 = 0 → s.inputs = .read .word off :: rest →
    ∃ v, step s = .next { s with
        inputs := rest, pending := some ⟨w, n⟩, reads := s.reads ++ [v], draws := s.draws + 1 } ∧
      (off = 0x008 → v.getLsbD 0 = true ∧ v.extractLsb' 24 8 = s.lastOp ∧
        v.extractLsb' 1 23 = (Config.freeWord s.draws).extractLsb' 1 23) ∧
      (off ≠ 0x008 → v = Config.freeWord s.draws)

/-- 70_reset_and_hazards.md R300: a write while BUSY = 1, to any register, CMD included, is a fault. -/
def Obligations.WritesWhileBusyFault : Prop :=
  ∀ (s : State) (w v : Word) (n : Nat) (off : BitVec 9) (rest : List HostAction), s.rstN = true →
    s.pending = some ⟨w, n + 1⟩ → off.extractLsb' 0 2 = 0 → s.inputs = .write .word off v :: rest →
    step s = .fault .writeWhileBusy

/-- 20_memory.md R74: byte `i` of a block is byte `i mod 4` of register `i div 4`, and a block is written as the words
of its columns, the first byte most significant; key bytes and round-key bytes lie the same way. -/
def Obligations.BlocksPackByColumns : Prop :=
  (∀ (q : Quad) (r c : Fin 4), blockAt (blkOf q) r c = (quadGet q c).extractLsb' (24 - 8 * r.val) 8) ∧
  (∀ (b : Block) (c : Fin 4), (quadGet (quadOf b) c).toNat =
    (blockAt b 0 c).toNat * 2 ^ 24 + (blockAt b 1 c).toNat * 2 ^ 16 + (blockAt b 2 c).toNat * 2 ^ 8 +
      (blockAt b 3 c).toNat) ∧
  (∀ (key : Vector Word 8) (j : Fin 8) (k : Fin 4),
    keyByte key (4 * j.val + k.val) = key[j].extractLsb' (24 - 8 * k.val) 8) ∧
  (∀ (rk : Vector Word 60) (r : Fin 15) (k c : Fin 4),
    blockAt (roundKey rk r) k c = (rk[4 * r.val + c.val]).extractLsb' (24 - 8 * k.val) 8)

/-- Of 60_exceptions.md R266 and 00_scope.md R16: the hex digits and their values; the driver rejects as InvalidFormat
exactly the texts that are not whole bytes of hex and an IV that is not 32 hex digits, whatever their length; any other
text gives the host program of the bytes it spells, for a message whose length MSG_LEN counts; and the same for a key
given to `expand_key`. What the driver does with a longer message is the model's choice and not said here (log entry
13). -/
def Obligations.DriverRejectsMalformedText : Prop :=
  (∀ d, d < 16 → ("0123456789abcdef".toList[d]?).bind hexDigit = some d ∧
    ("0123456789ABCDEF".toList[d]?).bind hexDigit = some d) ∧
  (∀ c : Char, (hexDigit c).isSome = true → c ∈ "0123456789abcdefABCDEF".toList) ∧
  ∀ (dir : Dir) (mode : Mode) (hexIn hexKey : List Char) (hexIv : Option (List Char)),
    let isHex := fun text : List Char => text.length % 2 = 0 ∧ ∀ c ∈ text, (hexDigit c).isSome
    let spells := fun (text : List Char) (bs : List Byte) => text.length = 2 * bs.length ∧
      ∀ k, k < bs.length → ∃ x y, (text[2 * k]?).bind hexDigit = some x ∧ (text[2 * k + 1]?).bind hexDigit = some y ∧
        bs[k]? = some (BitVec.ofNat 8 (16 * x + y))
    (messageOfHex dir mode hexIn hexKey hexIv = .error .invalidFormat ↔
      ¬ isHex hexIn ∨ ¬ isHex hexKey ∨ ∃ text, hexIv = some text ∧ ¬ (isHex text ∧ text.length = 32)) ∧
    (∀ input key, spells hexIn input → spells hexKey key → input.length < 2 ^ 32 →
      (hexIv = none → messageOfHex dir mode hexIn hexKey hexIv = .ok (messageProgram dir mode input key none)) ∧
      (∀ text bs iv, hexIv = some text → spells text bs → bs.length = 16 →
        (∀ r c : Fin 4, bs[4 * c.val + r.val]? = some (blockAt iv r c)) →
        messageOfHex dir mode hexIn hexKey hexIv = .ok (messageProgram dir mode input key (some iv)))) ∧
    (expandKeyOfHex hexKey = .error .invalidFormat ↔ ¬ isHex hexKey) ∧
    (∀ key, spells hexKey key → expandKeyOfHex hexKey = .ok (expandKeyProgram key))

/-! ## Runs -/

/-- Of 70_reset_and_hazards.md R296: every command completes. With a host that only polls or waits, the command in
progress has all its effects, and no other, once its wait has passed. -/
def Obligations.EveryCommandCompletes : Prop :=
  ∀ (s : State) (v : Word) (n : Nat), s.rstN = true → s.pending = some ⟨v, n⟩ →
    (∀ a ∈ s.inputs, a = .poll ∨ a = .idle) →
    ∃ t u, complete v s = .next u ∧ Host.Core.run core (n + 1) s = .next t ∧ t = { u with inputs := t.inputs }

/-- 70_reset_and_hazards.md R297: for a host that polls after its CMD write the machine runs as if issue and
completion were one step, whatever the latency. -/
def Obligations.PolledCommandsRunAsOneStep : Prop :=
  ∀ (s : State) (v : Word) (rest : List HostAction), s.rstN = true → s.pending = none →
    s.inputs = .write .word 0x004 v :: .poll :: rest →
    ∃ k t, Host.Core.run core k s = .next t ∧ t.inputs = rest ∧ t.pending = none ∧
      complete v (issue v { s with inputs := rest }) = .next t

/-- 70_reset_and_hazards.md R297..R300, 20_memory.md R71: a host that makes aligned 32-bit accesses, polls after every
CMD write before its next write, reads nothing but STATUS until then, and leaves the core alone while `rst_n` is low
never meets a fault, however long it runs, from every state in which no command is in progress while `rst_n` is low
(70_reset_and_hazards.md R290; an invariant, by StepsKeepTheScheduleWhole). -/
def Obligations.DisciplinedHostsNeverFault : Prop :=
  ∀ (s : State) (k : Nat), ResetInv s → Disciplined (phaseOf s) s.inputs = true →
    ∃ t, Host.Core.run core k s = .next t ∧ ResetInv t ∧ Disciplined (phaseOf t) t.inputs = true

/-- 60_exceptions.md R282: the trace is observation only. A step that starts with another trace does the same, and
appends the same events. -/
def Obligations.TraceIsObservationOnly : Prop :=
  ∀ (s : State) (tr : List TraceEvent), ∃ es : List TraceEvent,
    (∀ t, step s = .next t → t.trace = s.trace ++ es) ∧
    step { s with trace := tr } = mapNext (fun t => { t with trace := tr ++ es }) (step s)

/-- Of 60_exceptions.md R286: how many events each command that succeeds emits; a command that fails emits none. -/
def Obligations.EventCountsPerCommand : Prop :=
  ∀ (i : Instr) (s t : State), StatusInv s → exec i s = .next t →
    (t.err ≠ 0 → t.trace = s.trace) ∧
    (t.err = 0 → ∃ es, t.trace = s.trace ++ es ∧
      (i = .nop ∨ i = .gfMul → es = []) ∧
      (i = .subBytes ∨ i = .invSubBytes ∨ i = .shiftRows ∨ i = .invShiftRows ∨ i = .mixColumns ∨
        i = .invMixColumns ∨ (∃ r, i = .addRoundKey r) → es.length = 1) ∧
      (i = .encState ∨ i = .decState → es.length = 4 * s.nr.toNat) ∧
      (i = .msgBlock → s.msgMode = .ecb → es.length = 4 * s.nr.toNat) ∧
      (i = .msgBlock → s.msgMode = .cbc → es.length = 4 * s.nr.toNat + 1) ∧
      (i = .expandKey ∨ i = .msgStart → es.length = if t.nr = 14 then 79 else 70))

/-- Of 10_state.md R48: no step reads the working block. A step that starts with another one does the same, up to the
working block it leaves. -/
def Obligations.WorkingBlockIsNeverRead : Prop :=
  ∀ (s : State) (b : Block),
    mapNext (fun t => { t with work := zeroBlock }) (step { s with work := b }) =
      mapNext (fun t => { t with work := zeroBlock }) (step s)
end

