-- ==== Sys2Proof/Laws/Bus.lean ====
section
/-! SUPPORT. The register map: each register is found at its own offset, which is aligned; and a register write keeps
everything but its register, the command in progress and LAST_OP (10_state.md R22, R23; 20_memory.md R79). -/

namespace Sys2Proof.Machine

theorem regAt_offset (r : Reg) : regAt (Reg.offset r) = some r := by
  cases r with
  | ctrl | cmd | status | keyLen | msgLen | blocksLeft | gfOpnd | gfRes => rfl
  | key j | iv j | din j | dout j | state j | cv j => revert j; decide
  | rk i => revert i; decide +kernel

theorem aligned_offset (r : Reg) : aligned .word (Reg.offset r) = true := by
  cases r with
  | ctrl | cmd | status | keyLen | msgLen | blocksLeft | gfOpnd | gfRes => rfl
  | key j | iv j | din j | dout j | state j | cv j => revert j; decide
  | rk i => revert i; decide +kernel

theorem busRead_offset (r : Reg) (s : State) : busRead (Reg.offset r) s = readReg r s := by
  simp [busRead, regAt_offset]

theorem busWrite_offset (r : Reg) (v : Word) (s : State) : busWrite (Reg.offset r) v s = writeReg r v s := by
  simp [busWrite, regAt_offset]

/-- What no bus write changes: everything the engine alone writes, and the host's side. -/
theorem busWrite_frame (off : BitVec 9) (v : Word) (s : State) :
    (busWrite off v s).rk = s.rk ∧ (busWrite off v s).ksValid = s.ksValid ∧ (busWrite off v s).nr = s.nr ∧
    (busWrite off v s).cv = s.cv ∧ (busWrite off v s).dout = s.dout ∧ (busWrite off v s).gfRes = s.gfRes ∧
    (busWrite off v s).msgActive = s.msgActive ∧ (busWrite off v s).blocksLeft = s.blocksLeft ∧
    (busWrite off v s).doutValid = s.doutValid ∧ (busWrite off v s).err = s.err ∧
    (busWrite off v s).msgDir = s.msgDir ∧ (busWrite off v s).msgMode = s.msgMode ∧
    (busWrite off v s).work = s.work ∧ (busWrite off v s).rstN = s.rstN ∧ (busWrite off v s).trace = s.trace ∧
    (busWrite off v s).inputs = s.inputs ∧ (busWrite off v s).reads = s.reads := by
  unfold busWrite
  split
  · rename_i r _
    cases r <;> simp [writeReg, issue, beginCommand]
  · simp

/-- A bus write begins a command exactly at CMD. -/
theorem busWrite_pending {off : BitVec 9} (h : regAt off ≠ some .cmd) (v : Word) (s : State) :
    (busWrite off v s).pending = s.pending ∧ (busWrite off v s).lastOp = s.lastOp ∧
      (busWrite off v s).draws = s.draws := by
  unfold busWrite
  split
  · rename_i r hr
    cases r <;> simp_all [writeReg]
  · simp

end Sys2Proof.Machine
end

