-- ==== Sys2Proof/Laws/Bytes.lean ====
section
/-! SUPPORT. Byte order: words and columns, register groups and blocks are the same data; XOR cancels. -/

namespace Sys2Proof.Machine

theorem byteK_colWord (t : Col) (r : Fin 4) : byteK r (colWord t) = colAt t r := by
  fin_cases r <;> simp only [byteK, colWord, colAt] <;> ext i hi <;>
    simp [BitVec.getElem_extractLsb'] <;> grind

@[simp] theorem colOf_colWord (t : Col) : colOf (colWord t) = t := by
  have h := byteK_colWord t
  have h0 := h 0; have h1 := h 1; have h2 := h 2; have h3 := h 3
  cases t
  simp_all [colOf, colAt]

@[simp] theorem colWord_colOf (w : Word) : colWord (colOf w) = w := by
  simp only [colWord, colOf, byteK]
  ext i hi
  simp
  grind

@[simp] theorem blkOf_quadOf (b : Block) : blkOf (quadOf b) = b := by simp [blkOf, quadOf]

@[simp] theorem quadOf_blkOf (q : Quad) : quadOf (blkOf q) = q := by simp [blkOf, quadOf]

theorem quadOf_inj {a b : Block} (h : quadOf a = quadOf b) : a = b := by
  rw [← blkOf_quadOf a, h, blkOf_quadOf]

theorem colAt_colOf (w : Word) (r : Fin 4) : colAt (colOf w) r = byteK r w := by
  fin_cases r <;> rfl

theorem blockAt_blkOf (q : Quad) (r c : Fin 4) : blockAt (blkOf q) r c = byteK r (quadGet q c) := by
  fin_cases c <;> exact colAt_colOf _ _

theorem byteK_quadOf (b : Block) (r c : Fin 4) : byteK r (quadGet (quadOf b) c) = blockAt b r c := by
  rw [← blockAt_blkOf, blkOf_quadOf]

/-- Two columns with the same bytes are equal. -/
theorem col_ext {a b : Col} (h : ∀ r, colAt a r = colAt b r) : a = b := by
  cases a; cases b
  simpa [colAt] using ⟨h 0, h 1, h 2, h 3⟩

@[simp] theorem xorCol_xorCol (a b : Col) : xorCol (xorCol a b) b = a := by
  simp [xorCol]

@[simp] theorem xorBlock_xorBlock (a b : Block) : xorBlock (xorBlock a b) b = a := by
  simp [xorBlock]

theorem xorCol_comm (a b : Col) : xorCol a b = xorCol b a := by
  simp [xorCol, BitVec.xor_comm]

theorem xorBlock_comm (a b : Block) : xorBlock a b = xorBlock b a := by
  simp [xorBlock, xorCol_comm]

theorem colAt_xorCol (a b : Col) (r : Fin 4) : colAt (xorCol a b) r = colAt a r ^^^ colAt b r := by
  fin_cases r <;> rfl

theorem quadOf_zeroBlock : quadOf zeroBlock = ⟨0, 0, 0, 0⟩ := by decide

end Sys2Proof.Machine
end

