-- ==== Sys2Proof/Laws/Decode.lean ====
section
/-! SUPPORT. The fields of an encoded command, and what a word of given fields decodes to. -/

namespace Sys2Proof

theorem opField_encode (i : Instr) : opField (encode i) = i.opcode := by
  simp only [opField, encode]
  ext k hk
  simp [BitVec.getElem_extractLsb']
  grind

theorem rndField_encode (i : Instr) : rndField (encode i) = BitVec.ofNat 4 i.rnd := by
  simp only [rndField, encode]
  ext k hk
  simp [BitVec.getElem_extractLsb']
  grind

theorem rsvdField_encode (i : Instr) : rsvdField (encode i) = 0 := by
  simp only [rsvdField, encode]
  ext k hk
  simp [BitVec.getElem_extractLsb']
  grind

/-- A word is its three fields. -/
theorem word_of_fields (w : Word) : w = rsvdField w ++ rndField w ++ opField w := by
  simp only [opField, rndField, rsvdField]
  ext k hk
  simp
  grind

end Sys2Proof
end

