-- ==== Sys2Proof/Laws/Driver.lean ====
section
/-! SUPPORT. Hex text: the bytes a text spells, by place, and which texts spell bytes (00_scope.md R16;
60_exceptions.md R266). -/

namespace Sys2Proof.Machine

/-- A pair of digits before a text. -/
theorem hexBytes_cons_cons {a b : Char} {rest : List Char} {bs : List Byte} :
    hexBytes (a :: b :: rest) = some bs ↔ ∃ x y tail, hexDigit a = some x ∧ hexDigit b = some y ∧
      hexBytes rest = some tail ∧ bs = BitVec.ofNat 8 (16 * x + y) :: tail := by
  simp only [hexBytes]
  cases hexDigit a <;> cases hexDigit b <;> cases hexBytes rest <;> simp [eq_comm]

/-- A text has twice as many digits as the bytes it spells. -/
theorem hexBytes_length : ∀ {text : List Char} {bs : List Byte}, hexBytes text = some bs →
    text.length = 2 * bs.length
  | [], _, h => by cases h; rfl
  | [_], _, h => by simp [hexBytes] at h
  | a :: b :: rest, bs, h => by
    obtain ⟨x, y, tail, -, -, ht, rfl⟩ := hexBytes_cons_cons.1 h
    have := hexBytes_length ht
    simp only [List.length_cons]
    omega

/-- A text spells bytes exactly when it is an even number of hex digits. -/
theorem hexBytes_isSome : ∀ text : List Char,
    (hexBytes text).isSome = true ↔ text.length % 2 = 0 ∧ ∀ c ∈ text, (hexDigit c).isSome = true
  | [] => by simp [hexBytes]
  | [_] => by simp [hexBytes]
  | a :: b :: rest => by
    have ih := hexBytes_isSome rest
    have hl : (a :: b :: rest).length % 2 = rest.length % 2 := by simp only [List.length_cons]; omega
    rw [hl]
    simp only [hexBytes, List.mem_cons, forall_eq_or_imp]
    revert ih
    cases hexDigit a <;> cases hexDigit b <;> cases hexBytes rest <;> simp

end Sys2Proof.Machine
end

