-- ==== Sys2Proof/Laws/State.lean ====
section
/-! SUPPORT. What each shared update does to each field of State, so that no proof unfolds a record update. -/

namespace Sys2Proof.Machine

/-! ### raiseError -/

@[simp] theorem raiseError_ctrl (e : ErrCode) (s : State) : (raiseError e s).ctrl = s.ctrl := rfl
@[simp] theorem raiseError_keyLen (e : ErrCode) (s : State) : (raiseError e s).keyLen = s.keyLen := rfl
@[simp] theorem raiseError_msgLen (e : ErrCode) (s : State) : (raiseError e s).msgLen = s.msgLen := rfl
@[simp] theorem raiseError_blocksLeft (e : ErrCode) (s : State) : (raiseError e s).blocksLeft = s.blocksLeft := rfl
@[simp] theorem raiseError_gfOpnd (e : ErrCode) (s : State) : (raiseError e s).gfOpnd = s.gfOpnd := rfl
@[simp] theorem raiseError_gfRes (e : ErrCode) (s : State) : (raiseError e s).gfRes = s.gfRes := rfl
@[simp] theorem raiseError_key (e : ErrCode) (s : State) : (raiseError e s).key = s.key := rfl
@[simp] theorem raiseError_iv (e : ErrCode) (s : State) : (raiseError e s).iv = s.iv := rfl
@[simp] theorem raiseError_din (e : ErrCode) (s : State) : (raiseError e s).din = s.din := rfl
@[simp] theorem raiseError_dout (e : ErrCode) (s : State) : (raiseError e s).dout = s.dout := rfl
@[simp] theorem raiseError_state (e : ErrCode) (s : State) : (raiseError e s).state = s.state := rfl
@[simp] theorem raiseError_cv (e : ErrCode) (s : State) : (raiseError e s).cv = s.cv := rfl
@[simp] theorem raiseError_rk (e : ErrCode) (s : State) : (raiseError e s).rk = s.rk := rfl
@[simp] theorem raiseError_ksValid (e : ErrCode) (s : State) : (raiseError e s).ksValid = s.ksValid := rfl
@[simp] theorem raiseError_msgActive (e : ErrCode) (s : State) : (raiseError e s).msgActive = s.msgActive := rfl
@[simp] theorem raiseError_doutValid (e : ErrCode) (s : State) : (raiseError e s).doutValid = false := rfl
@[simp] theorem raiseError_err (e : ErrCode) (s : State) : (raiseError e s).err = ErrCode.code e := rfl
@[simp] theorem raiseError_nr (e : ErrCode) (s : State) : (raiseError e s).nr = s.nr := rfl
@[simp] theorem raiseError_msgDir (e : ErrCode) (s : State) : (raiseError e s).msgDir = s.msgDir := rfl
@[simp] theorem raiseError_msgMode (e : ErrCode) (s : State) : (raiseError e s).msgMode = s.msgMode := rfl
@[simp] theorem raiseError_lastOp (e : ErrCode) (s : State) : (raiseError e s).lastOp = s.lastOp := rfl
@[simp] theorem raiseError_pending (e : ErrCode) (s : State) : (raiseError e s).pending = none := rfl
@[simp] theorem raiseError_work (e : ErrCode) (s : State) : (raiseError e s).work = s.work := rfl
@[simp] theorem raiseError_rstN (e : ErrCode) (s : State) : (raiseError e s).rstN = s.rstN := rfl
@[simp] theorem raiseError_trace (e : ErrCode) (s : State) : (raiseError e s).trace = s.trace := rfl
@[simp] theorem raiseError_inputs (e : ErrCode) (s : State) : (raiseError e s).inputs = s.inputs := rfl
@[simp] theorem raiseError_reads (e : ErrCode) (s : State) : (raiseError e s).reads = s.reads := rfl
@[simp] theorem raiseError_draws (e : ErrCode) (s : State) : (raiseError e s).draws = s.draws := rfl

/-! ### succeed -/

@[simp] theorem succeed_ctrl (s : State) : (succeed s).ctrl = s.ctrl := rfl
@[simp] theorem succeed_keyLen (s : State) : (succeed s).keyLen = s.keyLen := rfl
@[simp] theorem succeed_msgLen (s : State) : (succeed s).msgLen = s.msgLen := rfl
@[simp] theorem succeed_blocksLeft (s : State) : (succeed s).blocksLeft = s.blocksLeft := rfl
@[simp] theorem succeed_gfOpnd (s : State) : (succeed s).gfOpnd = s.gfOpnd := rfl
@[simp] theorem succeed_gfRes (s : State) : (succeed s).gfRes = s.gfRes := rfl
@[simp] theorem succeed_key (s : State) : (succeed s).key = s.key := rfl
@[simp] theorem succeed_iv (s : State) : (succeed s).iv = s.iv := rfl
@[simp] theorem succeed_din (s : State) : (succeed s).din = s.din := rfl
@[simp] theorem succeed_dout (s : State) : (succeed s).dout = s.dout := rfl
@[simp] theorem succeed_state (s : State) : (succeed s).state = s.state := rfl
@[simp] theorem succeed_cv (s : State) : (succeed s).cv = s.cv := rfl
@[simp] theorem succeed_rk (s : State) : (succeed s).rk = s.rk := rfl
@[simp] theorem succeed_ksValid (s : State) : (succeed s).ksValid = s.ksValid := rfl
@[simp] theorem succeed_msgActive (s : State) : (succeed s).msgActive = s.msgActive := rfl
@[simp] theorem succeed_doutValid (s : State) : (succeed s).doutValid = s.doutValid := rfl
@[simp] theorem succeed_err (s : State) : (succeed s).err = 0 := rfl
@[simp] theorem succeed_nr (s : State) : (succeed s).nr = s.nr := rfl
@[simp] theorem succeed_msgDir (s : State) : (succeed s).msgDir = s.msgDir := rfl
@[simp] theorem succeed_msgMode (s : State) : (succeed s).msgMode = s.msgMode := rfl
@[simp] theorem succeed_lastOp (s : State) : (succeed s).lastOp = s.lastOp := rfl
@[simp] theorem succeed_pending (s : State) : (succeed s).pending = none := rfl
@[simp] theorem succeed_work (s : State) : (succeed s).work = s.work := rfl
@[simp] theorem succeed_rstN (s : State) : (succeed s).rstN = s.rstN := rfl
@[simp] theorem succeed_trace (s : State) : (succeed s).trace = s.trace := rfl
@[simp] theorem succeed_inputs (s : State) : (succeed s).inputs = s.inputs := rfl
@[simp] theorem succeed_reads (s : State) : (succeed s).reads = s.reads := rfl
@[simp] theorem succeed_draws (s : State) : (succeed s).draws = s.draws := rfl

/-! ### endMessage -/

@[simp] theorem endMessage_ctrl (s : State) : (endMessage s).ctrl = s.ctrl := rfl
@[simp] theorem endMessage_keyLen (s : State) : (endMessage s).keyLen = s.keyLen := rfl
@[simp] theorem endMessage_msgLen (s : State) : (endMessage s).msgLen = s.msgLen := rfl
@[simp] theorem endMessage_blocksLeft (s : State) : (endMessage s).blocksLeft = 0 := rfl
@[simp] theorem endMessage_gfOpnd (s : State) : (endMessage s).gfOpnd = s.gfOpnd := rfl
@[simp] theorem endMessage_gfRes (s : State) : (endMessage s).gfRes = s.gfRes := rfl
@[simp] theorem endMessage_key (s : State) : (endMessage s).key = s.key := rfl
@[simp] theorem endMessage_iv (s : State) : (endMessage s).iv = s.iv := rfl
@[simp] theorem endMessage_din (s : State) : (endMessage s).din = s.din := rfl
@[simp] theorem endMessage_dout (s : State) : (endMessage s).dout = s.dout := rfl
@[simp] theorem endMessage_state (s : State) : (endMessage s).state = s.state := rfl
@[simp] theorem endMessage_cv (s : State) : (endMessage s).cv = s.cv := rfl
@[simp] theorem endMessage_rk (s : State) : (endMessage s).rk = s.rk := rfl
@[simp] theorem endMessage_ksValid (s : State) : (endMessage s).ksValid = s.ksValid := rfl
@[simp] theorem endMessage_msgActive (s : State) : (endMessage s).msgActive = false := rfl
@[simp] theorem endMessage_doutValid (s : State) : (endMessage s).doutValid = s.doutValid := rfl
@[simp] theorem endMessage_err (s : State) : (endMessage s).err = s.err := rfl
@[simp] theorem endMessage_nr (s : State) : (endMessage s).nr = s.nr := rfl
@[simp] theorem endMessage_msgDir (s : State) : (endMessage s).msgDir = s.msgDir := rfl
@[simp] theorem endMessage_msgMode (s : State) : (endMessage s).msgMode = s.msgMode := rfl
@[simp] theorem endMessage_lastOp (s : State) : (endMessage s).lastOp = s.lastOp := rfl
@[simp] theorem endMessage_pending (s : State) : (endMessage s).pending = s.pending := rfl
@[simp] theorem endMessage_work (s : State) : (endMessage s).work = s.work := rfl
@[simp] theorem endMessage_rstN (s : State) : (endMessage s).rstN = s.rstN := rfl
@[simp] theorem endMessage_trace (s : State) : (endMessage s).trace = s.trace := rfl
@[simp] theorem endMessage_inputs (s : State) : (endMessage s).inputs = s.inputs := rfl
@[simp] theorem endMessage_reads (s : State) : (endMessage s).reads = s.reads := rfl
@[simp] theorem endMessage_draws (s : State) : (endMessage s).draws = s.draws := rfl

/-! ### emit -/

@[simp] theorem emit_ctrl (es : List TraceEvent) (s : State) : (emit es s).ctrl = s.ctrl := rfl
@[simp] theorem emit_keyLen (es : List TraceEvent) (s : State) : (emit es s).keyLen = s.keyLen := rfl
@[simp] theorem emit_msgLen (es : List TraceEvent) (s : State) : (emit es s).msgLen = s.msgLen := rfl
@[simp] theorem emit_blocksLeft (es : List TraceEvent) (s : State) : (emit es s).blocksLeft = s.blocksLeft := rfl
@[simp] theorem emit_gfOpnd (es : List TraceEvent) (s : State) : (emit es s).gfOpnd = s.gfOpnd := rfl
@[simp] theorem emit_gfRes (es : List TraceEvent) (s : State) : (emit es s).gfRes = s.gfRes := rfl
@[simp] theorem emit_key (es : List TraceEvent) (s : State) : (emit es s).key = s.key := rfl
@[simp] theorem emit_iv (es : List TraceEvent) (s : State) : (emit es s).iv = s.iv := rfl
@[simp] theorem emit_din (es : List TraceEvent) (s : State) : (emit es s).din = s.din := rfl
@[simp] theorem emit_dout (es : List TraceEvent) (s : State) : (emit es s).dout = s.dout := rfl
@[simp] theorem emit_state (es : List TraceEvent) (s : State) : (emit es s).state = s.state := rfl
@[simp] theorem emit_cv (es : List TraceEvent) (s : State) : (emit es s).cv = s.cv := rfl
@[simp] theorem emit_rk (es : List TraceEvent) (s : State) : (emit es s).rk = s.rk := rfl
@[simp] theorem emit_ksValid (es : List TraceEvent) (s : State) : (emit es s).ksValid = s.ksValid := rfl
@[simp] theorem emit_msgActive (es : List TraceEvent) (s : State) : (emit es s).msgActive = s.msgActive := rfl
@[simp] theorem emit_doutValid (es : List TraceEvent) (s : State) : (emit es s).doutValid = s.doutValid := rfl
@[simp] theorem emit_err (es : List TraceEvent) (s : State) : (emit es s).err = s.err := rfl
@[simp] theorem emit_nr (es : List TraceEvent) (s : State) : (emit es s).nr = s.nr := rfl
@[simp] theorem emit_msgDir (es : List TraceEvent) (s : State) : (emit es s).msgDir = s.msgDir := rfl
@[simp] theorem emit_msgMode (es : List TraceEvent) (s : State) : (emit es s).msgMode = s.msgMode := rfl
@[simp] theorem emit_lastOp (es : List TraceEvent) (s : State) : (emit es s).lastOp = s.lastOp := rfl
@[simp] theorem emit_pending (es : List TraceEvent) (s : State) : (emit es s).pending = s.pending := rfl
@[simp] theorem emit_work (es : List TraceEvent) (s : State) : (emit es s).work = s.work := rfl
@[simp] theorem emit_rstN (es : List TraceEvent) (s : State) : (emit es s).rstN = s.rstN := rfl
@[simp] theorem emit_trace (es : List TraceEvent) (s : State) : (emit es s).trace = s.trace ++ es := rfl
@[simp] theorem emit_inputs (es : List TraceEvent) (s : State) : (emit es s).inputs = s.inputs := rfl
@[simp] theorem emit_reads (es : List TraceEvent) (s : State) : (emit es s).reads = s.reads := rfl
@[simp] theorem emit_draws (es : List TraceEvent) (s : State) : (emit es s).draws = s.draws := rfl

/-! ### putState -/

@[simp] theorem putState_ctrl (b : Block) (s : State) : (putState b s).ctrl = s.ctrl := rfl
@[simp] theorem putState_keyLen (b : Block) (s : State) : (putState b s).keyLen = s.keyLen := rfl
@[simp] theorem putState_msgLen (b : Block) (s : State) : (putState b s).msgLen = s.msgLen := rfl
@[simp] theorem putState_blocksLeft (b : Block) (s : State) : (putState b s).blocksLeft = s.blocksLeft := rfl
@[simp] theorem putState_gfOpnd (b : Block) (s : State) : (putState b s).gfOpnd = s.gfOpnd := rfl
@[simp] theorem putState_gfRes (b : Block) (s : State) : (putState b s).gfRes = s.gfRes := rfl
@[simp] theorem putState_key (b : Block) (s : State) : (putState b s).key = s.key := rfl
@[simp] theorem putState_iv (b : Block) (s : State) : (putState b s).iv = s.iv := rfl
@[simp] theorem putState_din (b : Block) (s : State) : (putState b s).din = s.din := rfl
@[simp] theorem putState_dout (b : Block) (s : State) : (putState b s).dout = s.dout := rfl
@[simp] theorem putState_state (b : Block) (s : State) : (putState b s).state = quadOf b := rfl
@[simp] theorem putState_cv (b : Block) (s : State) : (putState b s).cv = s.cv := rfl
@[simp] theorem putState_rk (b : Block) (s : State) : (putState b s).rk = s.rk := rfl
@[simp] theorem putState_ksValid (b : Block) (s : State) : (putState b s).ksValid = s.ksValid := rfl
@[simp] theorem putState_msgActive (b : Block) (s : State) : (putState b s).msgActive = s.msgActive := rfl
@[simp] theorem putState_doutValid (b : Block) (s : State) : (putState b s).doutValid = s.doutValid := rfl
@[simp] theorem putState_err (b : Block) (s : State) : (putState b s).err = s.err := rfl
@[simp] theorem putState_nr (b : Block) (s : State) : (putState b s).nr = s.nr := rfl
@[simp] theorem putState_msgDir (b : Block) (s : State) : (putState b s).msgDir = s.msgDir := rfl
@[simp] theorem putState_msgMode (b : Block) (s : State) : (putState b s).msgMode = s.msgMode := rfl
@[simp] theorem putState_lastOp (b : Block) (s : State) : (putState b s).lastOp = s.lastOp := rfl
@[simp] theorem putState_pending (b : Block) (s : State) : (putState b s).pending = s.pending := rfl
@[simp] theorem putState_work (b : Block) (s : State) : (putState b s).work = s.work := rfl
@[simp] theorem putState_rstN (b : Block) (s : State) : (putState b s).rstN = s.rstN := rfl
@[simp] theorem putState_trace (b : Block) (s : State) : (putState b s).trace = s.trace := rfl
@[simp] theorem putState_inputs (b : Block) (s : State) : (putState b s).inputs = s.inputs := rfl
@[simp] theorem putState_reads (b : Block) (s : State) : (putState b s).reads = s.reads := rfl
@[simp] theorem putState_draws (b : Block) (s : State) : (putState b s).draws = s.draws := rfl

/-! ### leaveWork -/

@[simp] theorem leaveWork_ctrl (s : State) : (leaveWork s).ctrl = s.ctrl := rfl
@[simp] theorem leaveWork_keyLen (s : State) : (leaveWork s).keyLen = s.keyLen := rfl
@[simp] theorem leaveWork_msgLen (s : State) : (leaveWork s).msgLen = s.msgLen := rfl
@[simp] theorem leaveWork_blocksLeft (s : State) : (leaveWork s).blocksLeft = s.blocksLeft := rfl
@[simp] theorem leaveWork_gfOpnd (s : State) : (leaveWork s).gfOpnd = s.gfOpnd := rfl
@[simp] theorem leaveWork_gfRes (s : State) : (leaveWork s).gfRes = s.gfRes := rfl
@[simp] theorem leaveWork_key (s : State) : (leaveWork s).key = s.key := rfl
@[simp] theorem leaveWork_iv (s : State) : (leaveWork s).iv = s.iv := rfl
@[simp] theorem leaveWork_din (s : State) : (leaveWork s).din = s.din := rfl
@[simp] theorem leaveWork_dout (s : State) : (leaveWork s).dout = s.dout := rfl
@[simp] theorem leaveWork_state (s : State) : (leaveWork s).state = s.state := rfl
@[simp] theorem leaveWork_cv (s : State) : (leaveWork s).cv = s.cv := rfl
@[simp] theorem leaveWork_rk (s : State) : (leaveWork s).rk = s.rk := rfl
@[simp] theorem leaveWork_ksValid (s : State) : (leaveWork s).ksValid = s.ksValid := rfl
@[simp] theorem leaveWork_msgActive (s : State) : (leaveWork s).msgActive = s.msgActive := rfl
@[simp] theorem leaveWork_doutValid (s : State) : (leaveWork s).doutValid = s.doutValid := rfl
@[simp] theorem leaveWork_err (s : State) : (leaveWork s).err = s.err := rfl
@[simp] theorem leaveWork_nr (s : State) : (leaveWork s).nr = s.nr := rfl
@[simp] theorem leaveWork_msgDir (s : State) : (leaveWork s).msgDir = s.msgDir := rfl
@[simp] theorem leaveWork_msgMode (s : State) : (leaveWork s).msgMode = s.msgMode := rfl
@[simp] theorem leaveWork_lastOp (s : State) : (leaveWork s).lastOp = s.lastOp := rfl
@[simp] theorem leaveWork_pending (s : State) : (leaveWork s).pending = s.pending := rfl
@[simp] theorem leaveWork_work (s : State) : (leaveWork s).work = Config.freeWork s.draws := rfl
@[simp] theorem leaveWork_rstN (s : State) : (leaveWork s).rstN = s.rstN := rfl
@[simp] theorem leaveWork_trace (s : State) : (leaveWork s).trace = s.trace := rfl
@[simp] theorem leaveWork_inputs (s : State) : (leaveWork s).inputs = s.inputs := rfl
@[simp] theorem leaveWork_reads (s : State) : (leaveWork s).reads = s.reads := rfl
@[simp] theorem leaveWork_draws (s : State) : (leaveWork s).draws = s.draws + 1 := rfl

/-! ### storeSchedule -/

@[simp] theorem storeSchedule_ctrl (w : List Col) (n : Nat) (s : State) : (storeSchedule w n s).ctrl = s.ctrl := rfl
@[simp] theorem storeSchedule_keyLen (w : List Col) (n : Nat) (s : State) : (storeSchedule w n s).keyLen = s.keyLen := rfl
@[simp] theorem storeSchedule_msgLen (w : List Col) (n : Nat) (s : State) : (storeSchedule w n s).msgLen = s.msgLen := rfl
@[simp] theorem storeSchedule_blocksLeft (w : List Col) (n : Nat) (s : State) : (storeSchedule w n s).blocksLeft = s.blocksLeft := rfl
@[simp] theorem storeSchedule_gfOpnd (w : List Col) (n : Nat) (s : State) : (storeSchedule w n s).gfOpnd = s.gfOpnd := rfl
@[simp] theorem storeSchedule_gfRes (w : List Col) (n : Nat) (s : State) : (storeSchedule w n s).gfRes = s.gfRes := rfl
@[simp] theorem storeSchedule_key (w : List Col) (n : Nat) (s : State) : (storeSchedule w n s).key = s.key := rfl
@[simp] theorem storeSchedule_iv (w : List Col) (n : Nat) (s : State) : (storeSchedule w n s).iv = s.iv := rfl
@[simp] theorem storeSchedule_din (w : List Col) (n : Nat) (s : State) : (storeSchedule w n s).din = s.din := rfl
@[simp] theorem storeSchedule_dout (w : List Col) (n : Nat) (s : State) : (storeSchedule w n s).dout = s.dout := rfl
@[simp] theorem storeSchedule_state (w : List Col) (n : Nat) (s : State) : (storeSchedule w n s).state = s.state := rfl
@[simp] theorem storeSchedule_cv (w : List Col) (n : Nat) (s : State) : (storeSchedule w n s).cv = s.cv := rfl
@[simp] theorem storeSchedule_rk (w : List Col) (n : Nat) (s : State) : (storeSchedule w n s).rk = scheduleStore w n := rfl
@[simp] theorem storeSchedule_ksValid (w : List Col) (n : Nat) (s : State) : (storeSchedule w n s).ksValid = true := rfl
@[simp] theorem storeSchedule_msgActive (w : List Col) (n : Nat) (s : State) : (storeSchedule w n s).msgActive = s.msgActive := rfl
@[simp] theorem storeSchedule_doutValid (w : List Col) (n : Nat) (s : State) : (storeSchedule w n s).doutValid = s.doutValid := rfl
@[simp] theorem storeSchedule_err (w : List Col) (n : Nat) (s : State) : (storeSchedule w n s).err = s.err := rfl
@[simp] theorem storeSchedule_nr (w : List Col) (n : Nat) (s : State) : (storeSchedule w n s).nr = BitVec.ofNat 4 n := rfl
@[simp] theorem storeSchedule_msgDir (w : List Col) (n : Nat) (s : State) : (storeSchedule w n s).msgDir = s.msgDir := rfl
@[simp] theorem storeSchedule_msgMode (w : List Col) (n : Nat) (s : State) : (storeSchedule w n s).msgMode = s.msgMode := rfl
@[simp] theorem storeSchedule_lastOp (w : List Col) (n : Nat) (s : State) : (storeSchedule w n s).lastOp = s.lastOp := rfl
@[simp] theorem storeSchedule_pending (w : List Col) (n : Nat) (s : State) : (storeSchedule w n s).pending = s.pending := rfl
@[simp] theorem storeSchedule_work (w : List Col) (n : Nat) (s : State) : (storeSchedule w n s).work = s.work := rfl
@[simp] theorem storeSchedule_rstN (w : List Col) (n : Nat) (s : State) : (storeSchedule w n s).rstN = s.rstN := rfl
@[simp] theorem storeSchedule_trace (w : List Col) (n : Nat) (s : State) : (storeSchedule w n s).trace = s.trace := rfl
@[simp] theorem storeSchedule_inputs (w : List Col) (n : Nat) (s : State) : (storeSchedule w n s).inputs = s.inputs := rfl
@[simp] theorem storeSchedule_reads (w : List Col) (n : Nat) (s : State) : (storeSchedule w n s).reads = s.reads := rfl
@[simp] theorem storeSchedule_draws (w : List Col) (n : Nat) (s : State) : (storeSchedule w n s).draws = s.draws := rfl

/-! ### openMessage -/

@[simp] theorem openMessage_ctrl (s : State) : (openMessage s).ctrl = s.ctrl := rfl
@[simp] theorem openMessage_keyLen (s : State) : (openMessage s).keyLen = s.keyLen := rfl
@[simp] theorem openMessage_msgLen (s : State) : (openMessage s).msgLen = s.msgLen := rfl
@[simp] theorem openMessage_blocksLeft (s : State) : (openMessage s).blocksLeft = msgBlocks s := rfl
@[simp] theorem openMessage_gfOpnd (s : State) : (openMessage s).gfOpnd = s.gfOpnd := rfl
@[simp] theorem openMessage_gfRes (s : State) : (openMessage s).gfRes = s.gfRes := rfl
@[simp] theorem openMessage_key (s : State) : (openMessage s).key = s.key := rfl
@[simp] theorem openMessage_iv (s : State) : (openMessage s).iv = s.iv := rfl
@[simp] theorem openMessage_din (s : State) : (openMessage s).din = s.din := rfl
@[simp] theorem openMessage_dout (s : State) : (openMessage s).dout = s.dout := rfl
@[simp] theorem openMessage_state (s : State) : (openMessage s).state = s.state := rfl
@[simp] theorem openMessage_cv (s : State) : (openMessage s).cv = quadOf (startVector s) := rfl
@[simp] theorem openMessage_rk (s : State) : (openMessage s).rk = s.rk := rfl
@[simp] theorem openMessage_ksValid (s : State) : (openMessage s).ksValid = s.ksValid := rfl
@[simp] theorem openMessage_msgActive (s : State) : (openMessage s).msgActive = true := rfl
@[simp] theorem openMessage_doutValid (s : State) : (openMessage s).doutValid = false := rfl
@[simp] theorem openMessage_err (s : State) : (openMessage s).err = s.err := rfl
@[simp] theorem openMessage_nr (s : State) : (openMessage s).nr = s.nr := rfl
@[simp] theorem openMessage_msgDir (s : State) : (openMessage s).msgDir = ctrlDir s := rfl
@[simp] theorem openMessage_msgMode (s : State) : (openMessage s).msgMode = ctrlMode s := rfl
@[simp] theorem openMessage_lastOp (s : State) : (openMessage s).lastOp = s.lastOp := rfl
@[simp] theorem openMessage_pending (s : State) : (openMessage s).pending = s.pending := rfl
@[simp] theorem openMessage_work (s : State) : (openMessage s).work = s.work := rfl
@[simp] theorem openMessage_rstN (s : State) : (openMessage s).rstN = s.rstN := rfl
@[simp] theorem openMessage_trace (s : State) : (openMessage s).trace = s.trace := rfl
@[simp] theorem openMessage_inputs (s : State) : (openMessage s).inputs = s.inputs := rfl
@[simp] theorem openMessage_reads (s : State) : (openMessage s).reads = s.reads := rfl
@[simp] theorem openMessage_draws (s : State) : (openMessage s).draws = s.draws := rfl

/-! ### countBlock -/

@[simp] theorem countBlock_ctrl (s : State) : (countBlock s).ctrl = s.ctrl := rfl
@[simp] theorem countBlock_keyLen (s : State) : (countBlock s).keyLen = s.keyLen := rfl
@[simp] theorem countBlock_msgLen (s : State) : (countBlock s).msgLen = s.msgLen := rfl
@[simp] theorem countBlock_blocksLeft (s : State) : (countBlock s).blocksLeft = s.blocksLeft - 1 := rfl
@[simp] theorem countBlock_gfOpnd (s : State) : (countBlock s).gfOpnd = s.gfOpnd := rfl
@[simp] theorem countBlock_gfRes (s : State) : (countBlock s).gfRes = s.gfRes := rfl
@[simp] theorem countBlock_key (s : State) : (countBlock s).key = s.key := rfl
@[simp] theorem countBlock_iv (s : State) : (countBlock s).iv = s.iv := rfl
@[simp] theorem countBlock_din (s : State) : (countBlock s).din = s.din := rfl
@[simp] theorem countBlock_dout (s : State) : (countBlock s).dout = s.dout := rfl
@[simp] theorem countBlock_state (s : State) : (countBlock s).state = s.state := rfl
@[simp] theorem countBlock_cv (s : State) : (countBlock s).cv = s.cv := rfl
@[simp] theorem countBlock_rk (s : State) : (countBlock s).rk = s.rk := rfl
@[simp] theorem countBlock_ksValid (s : State) : (countBlock s).ksValid = s.ksValid := rfl
@[simp] theorem countBlock_msgActive (s : State) : (countBlock s).msgActive = decide (s.blocksLeft - 1 ≠ 0) := rfl
@[simp] theorem countBlock_doutValid (s : State) : (countBlock s).doutValid = true := rfl
@[simp] theorem countBlock_err (s : State) : (countBlock s).err = s.err := rfl
@[simp] theorem countBlock_nr (s : State) : (countBlock s).nr = s.nr := rfl
@[simp] theorem countBlock_msgDir (s : State) : (countBlock s).msgDir = s.msgDir := rfl
@[simp] theorem countBlock_msgMode (s : State) : (countBlock s).msgMode = s.msgMode := rfl
@[simp] theorem countBlock_lastOp (s : State) : (countBlock s).lastOp = s.lastOp := rfl
@[simp] theorem countBlock_pending (s : State) : (countBlock s).pending = s.pending := rfl
@[simp] theorem countBlock_work (s : State) : (countBlock s).work = s.work := rfl
@[simp] theorem countBlock_rstN (s : State) : (countBlock s).rstN = s.rstN := rfl
@[simp] theorem countBlock_trace (s : State) : (countBlock s).trace = s.trace := rfl
@[simp] theorem countBlock_inputs (s : State) : (countBlock s).inputs = s.inputs := rfl
@[simp] theorem countBlock_reads (s : State) : (countBlock s).reads = s.reads := rfl
@[simp] theorem countBlock_draws (s : State) : (countBlock s).draws = s.draws := rfl

/-! ### beginCommand -/

@[simp] theorem beginCommand_ctrl (w : Word) (n : Nat) (s : State) : (beginCommand w n s).ctrl = s.ctrl := rfl
@[simp] theorem beginCommand_keyLen (w : Word) (n : Nat) (s : State) : (beginCommand w n s).keyLen = s.keyLen := rfl
@[simp] theorem beginCommand_msgLen (w : Word) (n : Nat) (s : State) : (beginCommand w n s).msgLen = s.msgLen := rfl
@[simp] theorem beginCommand_blocksLeft (w : Word) (n : Nat) (s : State) : (beginCommand w n s).blocksLeft = s.blocksLeft := rfl
@[simp] theorem beginCommand_gfOpnd (w : Word) (n : Nat) (s : State) : (beginCommand w n s).gfOpnd = s.gfOpnd := rfl
@[simp] theorem beginCommand_gfRes (w : Word) (n : Nat) (s : State) : (beginCommand w n s).gfRes = s.gfRes := rfl
@[simp] theorem beginCommand_key (w : Word) (n : Nat) (s : State) : (beginCommand w n s).key = s.key := rfl
@[simp] theorem beginCommand_iv (w : Word) (n : Nat) (s : State) : (beginCommand w n s).iv = s.iv := rfl
@[simp] theorem beginCommand_din (w : Word) (n : Nat) (s : State) : (beginCommand w n s).din = s.din := rfl
@[simp] theorem beginCommand_dout (w : Word) (n : Nat) (s : State) : (beginCommand w n s).dout = s.dout := rfl
@[simp] theorem beginCommand_state (w : Word) (n : Nat) (s : State) : (beginCommand w n s).state = s.state := rfl
@[simp] theorem beginCommand_cv (w : Word) (n : Nat) (s : State) : (beginCommand w n s).cv = s.cv := rfl
@[simp] theorem beginCommand_rk (w : Word) (n : Nat) (s : State) : (beginCommand w n s).rk = s.rk := rfl
@[simp] theorem beginCommand_ksValid (w : Word) (n : Nat) (s : State) : (beginCommand w n s).ksValid = s.ksValid := rfl
@[simp] theorem beginCommand_msgActive (w : Word) (n : Nat) (s : State) : (beginCommand w n s).msgActive = s.msgActive := rfl
@[simp] theorem beginCommand_doutValid (w : Word) (n : Nat) (s : State) : (beginCommand w n s).doutValid = s.doutValid := rfl
@[simp] theorem beginCommand_err (w : Word) (n : Nat) (s : State) : (beginCommand w n s).err = s.err := rfl
@[simp] theorem beginCommand_nr (w : Word) (n : Nat) (s : State) : (beginCommand w n s).nr = s.nr := rfl
@[simp] theorem beginCommand_msgDir (w : Word) (n : Nat) (s : State) : (beginCommand w n s).msgDir = s.msgDir := rfl
@[simp] theorem beginCommand_msgMode (w : Word) (n : Nat) (s : State) : (beginCommand w n s).msgMode = s.msgMode := rfl
@[simp] theorem beginCommand_lastOp (w : Word) (n : Nat) (s : State) : (beginCommand w n s).lastOp = w.extractLsb' 0 8 := rfl
@[simp] theorem beginCommand_pending (w : Word) (n : Nat) (s : State) : (beginCommand w n s).pending = some ⟨w, n⟩ := rfl
@[simp] theorem beginCommand_work (w : Word) (n : Nat) (s : State) : (beginCommand w n s).work = s.work := rfl
@[simp] theorem beginCommand_rstN (w : Word) (n : Nat) (s : State) : (beginCommand w n s).rstN = s.rstN := rfl
@[simp] theorem beginCommand_trace (w : Word) (n : Nat) (s : State) : (beginCommand w n s).trace = s.trace := rfl
@[simp] theorem beginCommand_inputs (w : Word) (n : Nat) (s : State) : (beginCommand w n s).inputs = s.inputs := rfl
@[simp] theorem beginCommand_reads (w : Word) (n : Nat) (s : State) : (beginCommand w n s).reads = s.reads := rfl
@[simp] theorem beginCommand_draws (w : Word) (n : Nat) (s : State) : (beginCommand w n s).draws = s.draws := rfl

/-! ### issue -/

@[simp] theorem issue_ctrl (w : Word) (s : State) : (issue w s).ctrl = s.ctrl := rfl
@[simp] theorem issue_keyLen (w : Word) (s : State) : (issue w s).keyLen = s.keyLen := rfl
@[simp] theorem issue_msgLen (w : Word) (s : State) : (issue w s).msgLen = s.msgLen := rfl
@[simp] theorem issue_blocksLeft (w : Word) (s : State) : (issue w s).blocksLeft = s.blocksLeft := rfl
@[simp] theorem issue_gfOpnd (w : Word) (s : State) : (issue w s).gfOpnd = s.gfOpnd := rfl
@[simp] theorem issue_gfRes (w : Word) (s : State) : (issue w s).gfRes = s.gfRes := rfl
@[simp] theorem issue_key (w : Word) (s : State) : (issue w s).key = s.key := rfl
@[simp] theorem issue_iv (w : Word) (s : State) : (issue w s).iv = s.iv := rfl
@[simp] theorem issue_din (w : Word) (s : State) : (issue w s).din = s.din := rfl
@[simp] theorem issue_dout (w : Word) (s : State) : (issue w s).dout = s.dout := rfl
@[simp] theorem issue_state (w : Word) (s : State) : (issue w s).state = s.state := rfl
@[simp] theorem issue_cv (w : Word) (s : State) : (issue w s).cv = s.cv := rfl
@[simp] theorem issue_rk (w : Word) (s : State) : (issue w s).rk = s.rk := rfl
@[simp] theorem issue_ksValid (w : Word) (s : State) : (issue w s).ksValid = s.ksValid := rfl
@[simp] theorem issue_msgActive (w : Word) (s : State) : (issue w s).msgActive = s.msgActive := rfl
@[simp] theorem issue_doutValid (w : Word) (s : State) : (issue w s).doutValid = s.doutValid := rfl
@[simp] theorem issue_err (w : Word) (s : State) : (issue w s).err = s.err := rfl
@[simp] theorem issue_nr (w : Word) (s : State) : (issue w s).nr = s.nr := rfl
@[simp] theorem issue_msgDir (w : Word) (s : State) : (issue w s).msgDir = s.msgDir := rfl
@[simp] theorem issue_msgMode (w : Word) (s : State) : (issue w s).msgMode = s.msgMode := rfl
@[simp] theorem issue_lastOp (w : Word) (s : State) : (issue w s).lastOp = w.extractLsb' 0 8 := rfl
@[simp] theorem issue_pending (w : Word) (s : State) : (issue w s).pending = some ⟨w, Config.cmdLatency (w.extractLsb' 0 8) s.draws⟩ := rfl
@[simp] theorem issue_work (w : Word) (s : State) : (issue w s).work = s.work := rfl
@[simp] theorem issue_rstN (w : Word) (s : State) : (issue w s).rstN = s.rstN := rfl
@[simp] theorem issue_trace (w : Word) (s : State) : (issue w s).trace = s.trace := rfl
@[simp] theorem issue_inputs (w : Word) (s : State) : (issue w s).inputs = s.inputs := rfl
@[simp] theorem issue_reads (w : Word) (s : State) : (issue w s).reads = s.reads := rfl
@[simp] theorem issue_draws (w : Word) (s : State) : (issue w s).draws = s.draws + 1 := rfl

/-! ### record -/

@[simp] theorem record_ctrl (v : Word) (s : State) : (record v s).ctrl = s.ctrl := rfl
@[simp] theorem record_keyLen (v : Word) (s : State) : (record v s).keyLen = s.keyLen := rfl
@[simp] theorem record_msgLen (v : Word) (s : State) : (record v s).msgLen = s.msgLen := rfl
@[simp] theorem record_blocksLeft (v : Word) (s : State) : (record v s).blocksLeft = s.blocksLeft := rfl
@[simp] theorem record_gfOpnd (v : Word) (s : State) : (record v s).gfOpnd = s.gfOpnd := rfl
@[simp] theorem record_gfRes (v : Word) (s : State) : (record v s).gfRes = s.gfRes := rfl
@[simp] theorem record_key (v : Word) (s : State) : (record v s).key = s.key := rfl
@[simp] theorem record_iv (v : Word) (s : State) : (record v s).iv = s.iv := rfl
@[simp] theorem record_din (v : Word) (s : State) : (record v s).din = s.din := rfl
@[simp] theorem record_dout (v : Word) (s : State) : (record v s).dout = s.dout := rfl
@[simp] theorem record_state (v : Word) (s : State) : (record v s).state = s.state := rfl
@[simp] theorem record_cv (v : Word) (s : State) : (record v s).cv = s.cv := rfl
@[simp] theorem record_rk (v : Word) (s : State) : (record v s).rk = s.rk := rfl
@[simp] theorem record_ksValid (v : Word) (s : State) : (record v s).ksValid = s.ksValid := rfl
@[simp] theorem record_msgActive (v : Word) (s : State) : (record v s).msgActive = s.msgActive := rfl
@[simp] theorem record_doutValid (v : Word) (s : State) : (record v s).doutValid = s.doutValid := rfl
@[simp] theorem record_err (v : Word) (s : State) : (record v s).err = s.err := rfl
@[simp] theorem record_nr (v : Word) (s : State) : (record v s).nr = s.nr := rfl
@[simp] theorem record_msgDir (v : Word) (s : State) : (record v s).msgDir = s.msgDir := rfl
@[simp] theorem record_msgMode (v : Word) (s : State) : (record v s).msgMode = s.msgMode := rfl
@[simp] theorem record_lastOp (v : Word) (s : State) : (record v s).lastOp = s.lastOp := rfl
@[simp] theorem record_pending (v : Word) (s : State) : (record v s).pending = s.pending := rfl
@[simp] theorem record_work (v : Word) (s : State) : (record v s).work = s.work := rfl
@[simp] theorem record_rstN (v : Word) (s : State) : (record v s).rstN = s.rstN := rfl
@[simp] theorem record_trace (v : Word) (s : State) : (record v s).trace = s.trace := rfl
@[simp] theorem record_inputs (v : Word) (s : State) : (record v s).inputs = s.inputs := rfl
@[simp] theorem record_reads (v : Word) (s : State) : (record v s).reads = s.reads ++ [v] := rfl
@[simp] theorem record_draws (v : Word) (s : State) : (record v s).draws = s.draws := rfl

/-! ### resetByPin -/

@[simp] theorem resetByPin_ctrl (s : State) : (resetByPin s).ctrl = State.reset.ctrl := rfl
@[simp] theorem resetByPin_keyLen (s : State) : (resetByPin s).keyLen = State.reset.keyLen := rfl
@[simp] theorem resetByPin_msgLen (s : State) : (resetByPin s).msgLen = State.reset.msgLen := rfl
@[simp] theorem resetByPin_blocksLeft (s : State) : (resetByPin s).blocksLeft = State.reset.blocksLeft := rfl
@[simp] theorem resetByPin_gfOpnd (s : State) : (resetByPin s).gfOpnd = State.reset.gfOpnd := rfl
@[simp] theorem resetByPin_gfRes (s : State) : (resetByPin s).gfRes = State.reset.gfRes := rfl
@[simp] theorem resetByPin_key (s : State) : (resetByPin s).key = State.reset.key := rfl
@[simp] theorem resetByPin_iv (s : State) : (resetByPin s).iv = State.reset.iv := rfl
@[simp] theorem resetByPin_din (s : State) : (resetByPin s).din = State.reset.din := rfl
@[simp] theorem resetByPin_dout (s : State) : (resetByPin s).dout = State.reset.dout := rfl
@[simp] theorem resetByPin_state (s : State) : (resetByPin s).state = State.reset.state := rfl
@[simp] theorem resetByPin_cv (s : State) : (resetByPin s).cv = State.reset.cv := rfl
@[simp] theorem resetByPin_rk (s : State) : (resetByPin s).rk = State.reset.rk := rfl
@[simp] theorem resetByPin_ksValid (s : State) : (resetByPin s).ksValid = State.reset.ksValid := rfl
@[simp] theorem resetByPin_msgActive (s : State) : (resetByPin s).msgActive = State.reset.msgActive := rfl
@[simp] theorem resetByPin_doutValid (s : State) : (resetByPin s).doutValid = State.reset.doutValid := rfl
@[simp] theorem resetByPin_err (s : State) : (resetByPin s).err = State.reset.err := rfl
@[simp] theorem resetByPin_nr (s : State) : (resetByPin s).nr = State.reset.nr := rfl
@[simp] theorem resetByPin_msgDir (s : State) : (resetByPin s).msgDir = State.reset.msgDir := rfl
@[simp] theorem resetByPin_msgMode (s : State) : (resetByPin s).msgMode = State.reset.msgMode := rfl
@[simp] theorem resetByPin_lastOp (s : State) : (resetByPin s).lastOp = State.reset.lastOp := rfl
@[simp] theorem resetByPin_pending (s : State) : (resetByPin s).pending = State.reset.pending := rfl
@[simp] theorem resetByPin_work (s : State) : (resetByPin s).work = Config.freeWork s.draws := rfl
@[simp] theorem resetByPin_rstN (s : State) : (resetByPin s).rstN = false := rfl
@[simp] theorem resetByPin_trace (s : State) : (resetByPin s).trace = s.trace := rfl
@[simp] theorem resetByPin_inputs (s : State) : (resetByPin s).inputs = s.inputs := rfl
@[simp] theorem resetByPin_reads (s : State) : (resetByPin s).reads = s.reads := rfl
@[simp] theorem resetByPin_draws (s : State) : (resetByPin s).draws = s.draws + 1 := rfl

end Sys2Proof.Machine
end

