-- ==== Sys2Proof/Laws/Step.lean ====
section
/-! SUPPORT. What one host action, one turn and one completion can do, said once for later proofs to cite. -/

namespace Sys2Proof.Machine

theorem busy_eq_false {s : State} : busy s = false ↔ s.pending = none := by simp [busy]

theorem busy_eq_true {s : State} : busy s = true ↔ ∃ p, s.pending = some p := by
  simp [busy, Option.isSome_iff_exists]

/-- Everything a host action can do when it answers a next state. -/
theorem hostAct_cases {a : HostAction} {s t : State} (h : hostAct a s = .next t) :
    (a = .idle ∧ t = s) ∨
    (∃ z off, a = .read z off ∧ s.rstN = true ∧ aligned z off = true ∧ busy s = false ∧
      t = record (busRead off s) s) ∨
    (∃ z off, a = .read z off ∧ s.rstN = true ∧ aligned z off = true ∧ busy s = true ∧
      t = record (busReadBusy off s (Config.freeWord s.draws)) { s with draws := s.draws + 1 }) ∨
    (∃ z off v, a = .write z off v ∧ s.rstN = true ∧ aligned z off = true ∧ busy s = false ∧ t = busWrite off v s) ∨
    (a = .poll ∧ s.rstN = true ∧ busy s = true ∧ t = { s with inputs := .poll :: s.inputs }) ∨
    (a = .poll ∧ s.rstN = true ∧ busy s = false ∧ t = s) ∨
    (∃ high, a = .driveRst high ∧ t = driveReset high s) := by
  cases a with
  | idle => simp_all [hostAct]
  | read z off =>
    simp only [hostAct, hostRead] at h
    cases hr : s.rstN <;> cases ha : aligned z off <;> cases hb : busy s <;> simp_all
  | write z off v =>
    simp only [hostAct, hostWrite] at h
    cases hr : s.rstN <;> cases ha : aligned z off <;> cases hb : busy s <;> simp_all
  | poll =>
    simp only [hostAct, hostPoll] at h
    cases hr : s.rstN <;> cases hb : busy s <;> simp_all
  | driveRst high => simp_all [hostAct]

/-- A host's turn is its next action, or nothing. -/
theorem hostTurn_cases {s t : State} (h : hostTurn s = .next t) :
    (s.inputs = [] ∧ t = s) ∨
      ∃ a rest, s.inputs = a :: rest ∧ hostAct a { s with inputs := rest } = .next t := by
  unfold hostTurn at h
  split at h
  · rename_i hi
    simp_all
  · rename_i a rest hi
    exact .inr ⟨a, rest, hi, h⟩

/-- A step with a command due is its completion. -/
theorem step_due {s : State} {w : Word} (h : s.pending = some ⟨w, 0⟩) : step s = complete w s := by
  simp [step, turn, h]

/-- A step while a command waits is the host's turn, one turn of the wait used up. -/
theorem step_waiting {s : State} {w : Word} {n : Nat} (h : s.pending = some ⟨w, n + 1⟩) :
    step s = hostTurn { s with pending := some ⟨w, n⟩ } := by
  simp [step, turn, h]

/-- A step with no command in progress is the host's turn. -/
theorem step_idle {s : State} (h : s.pending = none) : step s = hostTurn s := by
  simp [step, turn, h]

/-- Everything a step can be. -/
theorem step_cases (s : State) :
    (∃ w, s.pending = some ⟨w, 0⟩ ∧ step s = complete w s) ∨
    (∃ w n, s.pending = some ⟨w, n + 1⟩ ∧ step s = hostTurn { s with pending := some ⟨w, n⟩ }) ∨
    (s.pending = none ∧ step s = hostTurn s) := by
  rcases hp : s.pending with _ | ⟨w, _ | n⟩
  · exact .inr (.inr ⟨rfl, step_idle hp⟩)
  · exact .inl ⟨w, rfl, step_due hp⟩
  · exact .inr (.inl ⟨w, n, rfl, step_waiting hp⟩)

theorem complete_ok {w : Word} {i : Instr} (h : decode w = .ok i) (s : State) : complete w s = exec i s := by
  simp [complete, h]

theorem complete_error {w : Word} {e : DecodeError} (h : decode w = .error e) (s : State) :
    complete w s = .next (raiseError .illegalCommand s) := by
  simp [complete, h, completeIllegal]

/-- The variants of the key length (42_key_schedule.md R160). -/
theorem variant_cases {len nk nr : Nat} (h : variant len = some (nk, nr)) :
    (len = 16 ∧ nk = 4 ∧ nr = 10) ∨ (len = 24 ∧ nk = 6 ∧ nr = 12) ∨ (len = 32 ∧ nk = 8 ∧ nr = 14) := by
  unfold variant at h
  split at h <;> simp_all

theorem variant_none_iff {len : Nat} : variant len = none ↔ len ≠ 16 ∧ len ≠ 24 ∧ len ≠ 32 := by
  unfold variant
  split <;> simp_all

end Sys2Proof.Machine
end

