-- ==== Sys2Proof/Laws/Exec.lean ====
section
/-! SUPPORT. Every command completes with a next state, and what all completions leave alone (10_state.md R30;
45_control.md R253; 70_reset_and_hazards.md R296). -/

namespace Sys2Proof.Machine

/-- What no completion changes: the operand registers, LAST_OP, reset and the host's side; BUSY falls. -/
structure CompletionFrame (s t : State) : Prop where
  pending : t.pending = none
  ctrl : t.ctrl = s.ctrl
  keyLen : t.keyLen = s.keyLen
  msgLen : t.msgLen = s.msgLen
  gfOpnd : t.gfOpnd = s.gfOpnd
  key : t.key = s.key
  iv : t.iv = s.iv
  din : t.din = s.din
  lastOp : t.lastOp = s.lastOp
  rstN : t.rstN = s.rstN
  inputs : t.inputs = s.inputs
  reads : t.reads = s.reads

theorem raiseError_frame (e : ErrCode) (s : State) : CompletionFrame s (raiseError e s) := by
  constructor <;> rfl

theorem raiseError_endMessage_frame (e : ErrCode) (s : State) : CompletionFrame s (raiseError e (endMessage s)) := by
  constructor <;> rfl

theorem stepState_frame (st : RoundStep) (s : State) : CompletionFrame s (stepState st s) := by
  constructor <;> rfl

theorem blockState_frame (steps : List RoundStep) (s : State) : CompletionFrame s (blockState steps s) := by
  constructor <;> rfl

theorem passDin_frame (s : State) : CompletionFrame s (passDin s) := by
  constructor <;> rfl

/-- Every command answers a next state, which keeps the frame of completions. -/
theorem exec_next (i : Instr) (s : State) : ∃ t, exec i s = .next t ∧ CompletionFrame s t := by
  cases i with
  | nop => exact ⟨_, rfl, by constructor <;> rfl⟩
  | gfMul => exact ⟨_, rfl, by constructor <;> rfl⟩
  | subBytes => exact ⟨_, rfl, stepState_frame _ _⟩
  | invSubBytes => exact ⟨_, rfl, stepState_frame _ _⟩
  | shiftRows => exact ⟨_, rfl, stepState_frame _ _⟩
  | invShiftRows => exact ⟨_, rfl, stepState_frame _ _⟩
  | mixColumns => exact ⟨_, rfl, stepState_frame _ _⟩
  | invMixColumns => exact ⟨_, rfl, stepState_frame _ _⟩
  | expandKey =>
    simp only [exec, execExpandKey]
    split
    · exact ⟨_, rfl, raiseError_frame _ _⟩
    · exact ⟨_, rfl, by constructor <;> rfl⟩
  | encState =>
    simp only [exec, execEncState]
    split
    · exact ⟨_, rfl, raiseError_frame _ _⟩
    · exact ⟨_, rfl, blockState_frame _ _⟩
  | decState =>
    simp only [exec, execDecState]
    split
    · exact ⟨_, rfl, raiseError_frame _ _⟩
    · exact ⟨_, rfl, blockState_frame _ _⟩
  | addRoundKey r =>
    simp only [exec, execAddRoundKey]
    split
    · exact ⟨_, rfl, raiseError_frame _ _⟩
    · split
      · exact ⟨_, rfl, raiseError_frame _ _⟩
      · exact ⟨_, rfl, stepState_frame _ _⟩
  | msgStart =>
    simp only [exec, execMsgStart]
    split
    · exact ⟨_, rfl, raiseError_endMessage_frame _ _⟩
    · split
      · exact ⟨_, rfl, raiseError_endMessage_frame _ _⟩
      · exact ⟨_, rfl, by constructor <;> rfl⟩
  | msgBlock =>
    simp only [exec, execMsgBlock]
    split
    · exact ⟨_, rfl, raiseError_frame _ _⟩
    · exact ⟨_, rfl, passDin_frame _⟩

/-- Every issued word completes with a next state, which keeps the frame of completions. -/
theorem complete_next (w : Word) (s : State) : ∃ t, complete w s = .next t ∧ CompletionFrame s t := by
  cases h : decode w with
  | ok i => rw [complete_ok h]; exact exec_next i s
  | error e => exact ⟨_, complete_error h s, raiseError_frame _ _⟩

end Sys2Proof.Machine
end

