-- ==== Sys2Proof/Laws/Gf.lean ====
section
/-! SUPPORT. Doubling and the fixed multiples are linear over XOR, and the general product is a sum of doublings
(40_gf_arith.md R130, R131, R132). -/

namespace Sys2Proof.Machine

theorem xtime_xor (a b : Byte) : xtime (a ^^^ b) = xtime a ^^^ xtime b := by
  simp only [xtime, BitVec.shiftLeft_xor_distrib, BitVec.getLsbD_xor]
  generalize a <<< 1 = x
  generalize b <<< 1 = y
  cases a.getLsbD 7 <;> cases b.getLsbD 7
  · simp
  · simp [BitVec.xor_assoc]
  · simp only [Bool.xor_false, if_true, Bool.false_eq_true, if_false]
    ac_rfl
  · rw [show x ^^^ (if true = true then 0x1B else 0x00) ^^^ (y ^^^ (if true = true then 0x1B else 0x00)) =
      x ^^^ y ^^^ ((0x1B : Byte) ^^^ 0x1B) by simp only [if_true]; ac_rfl]
    simp

theorem xtime_zero : xtime 0 = 0 := by decide

theorem mul2_xor (a b : Byte) : mul2 (a ^^^ b) = mul2 a ^^^ mul2 b := xtime_xor a b

theorem mul3_xor (a b : Byte) : mul3 (a ^^^ b) = mul3 a ^^^ mul3 b := by
  simp only [mul3, xtime_xor]; ac_rfl

theorem mul9_xor (a b : Byte) : mul9 (a ^^^ b) = mul9 a ^^^ mul9 b := by
  simp only [mul9, xtime_xor]; ac_rfl

theorem mul11_xor (a b : Byte) : mul11 (a ^^^ b) = mul11 a ^^^ mul11 b := by
  simp only [mul11, xtime_xor]; ac_rfl

theorem mul13_xor (a b : Byte) : mul13 (a ^^^ b) = mul13 a ^^^ mul13 b := by
  simp only [mul13, xtime_xor]; ac_rfl

theorem mul14_xor (a b : Byte) : mul14 (a ^^^ b) = mul14 a ^^^ mul14 b := by
  simp only [mul14, xtime_xor]; ac_rfl

/-- The product is the XOR of the doublings of `a` that the bits of `b` select. -/
theorem gmul_eq_foldl (a b : Byte) : gmul a b =
    (List.range 8).foldl (fun p i => if b.getLsbD i then p ^^^ xtime^[i] a else p) 0 := by
  simp [gmul, gmulLoop, List.range, List.range.loop]

end Sys2Proof.Machine
end

