-- ==== Sys2Proof/Laws/KeySchedule.lean ====
section
/-! SUPPORT. The loop of KeyExpansion: its length, the words it keeps, and each word and event it adds, said from
the finished schedule (42_key_schedule.md R164). -/

namespace Sys2Proof.Machine

theorem nextWord_fired (nk i fired : Nat) (before : List Col) :
    (nextWord nk i fired before).fired = if i % nk = 0 then fired + 1 else fired := by
  unfold nextWord
  split
  · simp_all
  · split <;> simp_all

/-- The count of core transformations before word `i + 1` (42_key_schedule.md R163). -/
theorem fired_step {nk i : Nat} (hk : 0 < nk) (hi : nk ≤ i) :
    (if i % nk = 0 then (i - 1) / nk + 1 else (i - 1) / nk) = i / nk := by
  obtain ⟨m, rfl⟩ : ∃ m, i = m + 1 := ⟨i - 1, by omega⟩
  have h : (m + 1) / nk = m / nk + if nk ∣ m + 1 then 1 else 0 := Nat.succ_div
  rw [Nat.add_sub_cancel, h]
  simp only [Nat.dvd_iff_mod_eq_zero]
  split <;> simp_all

/-- What the loop gives, word by word and event by event, each from the words before it. -/
theorem expandLoop_spec {nk : Nat} (hk : 0 < nk) :
    ∀ (n i : Nat) (before : List Col), before.length = i → nk ≤ i →
      (expandLoop nk n i ((i - 1) / nk) before).1.length = i + n ∧
      (expandLoop nk n i ((i - 1) / nk) before).1.take i = before.reverse ∧
      (∀ j, i ≤ j → j < i + n →
        (expandLoop nk n i ((i - 1) / nk) before).1[j]? =
          some (nextWord nk j ((j - 1) / nk) ((expandLoop nk n i ((i - 1) / nk) before).1.take j).reverse).word) ∧
      (expandLoop nk n i ((i - 1) / nk) before).2 = (List.range n).flatMap fun k =>
        (nextWord nk (i + k) ((i + k - 1) / nk)
          ((expandLoop nk n i ((i - 1) / nk) before).1.take (i + k)).reverse).events := by
  intro n
  induction n with
  | zero =>
    intro i before hl _
    simp only [expandLoop]
    refine ⟨by simp [hl], ?_, fun j h1 h2 => by omega, by simp⟩
    rw [List.take_of_length_le (by simp [hl])]
  | succ n ih =>
    intro i before hl hi
    have hf : (nextWord nk i ((i - 1) / nk) before).fired = (i + 1 - 1) / nk := by
      rw [nextWord_fired, fired_step hk hi, Nat.add_sub_cancel]
    have hstep : expandLoop nk (n + 1) i ((i - 1) / nk) before =
        ((expandLoop nk n (i + 1) ((i + 1 - 1) / nk) ((nextWord nk i ((i - 1) / nk) before).word :: before)).1,
          (nextWord nk i ((i - 1) / nk) before).events ++
          (expandLoop nk n (i + 1) ((i + 1 - 1) / nk) ((nextWord nk i ((i - 1) / nk) before).word :: before)).2) := by
      conv_lhs => rw [expandLoop]
      simp only [hf]
    obtain ⟨h1, h2, h3, h4⟩ := ih (i + 1) ((nextWord nk i ((i - 1) / nk) before).word :: before) (by simp [hl]) (by omega)
    rw [hstep]
    generalize expandLoop nk n (i + 1) ((i + 1 - 1) / nk)
      ((nextWord nk i ((i - 1) / nk) before).word :: before) = out at h1 h2 h3 h4
    simp only [List.reverse_cons] at h2
    have ht : out.1.take i = before.reverse := by
      have := congrArg (List.take i) h2
      rw [List.take_take, Nat.min_eq_left (by omega)] at this
      rw [this, List.take_append_of_le_length (by simp [hl]), List.take_of_length_le (by simp [hl])]
    have hb : (out.1.take i).reverse = before := by rw [ht, List.reverse_reverse]
    refine ⟨by rw [h1]; omega, ht, ?_, ?_⟩
    · intro j hj hj'
      rcases Nat.eq_or_lt_of_le hj with rfl | hlt
      · rw [hb]
        have h5 := congrArg (fun l => l[i]?) h2
        rw [List.getElem?_take_of_lt (by omega), List.getElem?_append_right (by simp [hl])] at h5
        simpa [hl] using h5
      · exact h3 j hlt (by omega)
    · rw [h4, List.range_succ_eq_map]
      simp only [List.flatMap_cons, List.flatMap_map, Nat.add_zero, hb, Nat.succ_eq_add_one]
      congr 2
      funext k
      rw [show i + 1 + k = i + (k + 1) by omega]

theorem keyWords_length (key : List Byte) (nk : Nat) : (keyWords key nk).length = nk := by simp [keyWords]

/-- What KeyExpansion gives, for any key and any count of words that is not below the key's own. -/
theorem keyExpansion_spec {nk nr : Nat} (key : List Byte) (hk : 0 < nk) (hn : nk ≤ 4 * (nr + 1)) :
    (keyExpansion key nk nr).1.length = 4 * (nr + 1) ∧
    (keyExpansion key nk nr).1.take nk = keyWords key nk ∧
    (∀ j, nk ≤ j → j < 4 * (nr + 1) →
      (keyExpansion key nk nr).1[j]? =
        some (nextWord nk j ((j - 1) / nk) ((keyExpansion key nk nr).1.take j).reverse).word) ∧
    (keyExpansion key nk nr).2 = (List.range (4 * (nr + 1) - nk)).flatMap fun k =>
      (nextWord nk (nk + k) ((nk + k - 1) / nk) ((keyExpansion key nk nr).1.take (nk + k)).reverse).events := by
  have h := expandLoop_spec hk (4 * (nr + 1) - nk) nk (keyWords key nk).reverse
    (by simp [keyWords_length]) (Nat.le_refl _)
  rw [show (nk - 1) / nk = 0 from Nat.div_eq_of_lt (by omega)] at h
  obtain ⟨h1, h2, h3, h4⟩ := h
  refine ⟨by rw [keyExpansion, h1]; omega, by rw [keyExpansion, h2, List.reverse_reverse], ?_, h4⟩
  intro j hj hj'
  exact h3 j hj (by omega)

/-- The word `m + 1` places back, seen from the words before word `j`. -/
theorem getD_take_reverse {α : Type} (l : List α) (j m : Nat) (z : α) (hj : j ≤ l.length) (hm : m < j) :
    ((l.take j).reverse).getD m z = l.getD (j - 1 - m) z := by
  rw [List.getD_eq_getElem?_getD, List.getD_eq_getElem?_getD, List.getElem?_reverse (by simp; omega)]
  rw [List.getElem?_take_of_lt (by simp; omega)]
  congr 2
  simp
  omega

end Sys2Proof.Machine
end

