-- ==== Sys2Proof/Laws/PerInstr.lean ====
section
/-! SUPPORT. Per-instruction statements: the fields of a command's encoding (30_encoding.md R100, R103). -/

namespace Sys2Proof.Laws.EncodeFields

/-- The word of a well-formed command has its reserved bits 0, its own opcode, and its operand in RND. -/
def Statement (i : Instr) : Prop :=
  i.wf = true → rsvdField (encode i) = 0 ∧ opField (encode i) = i.opcode ∧ (rndField (encode i)).toNat = i.rnd

/-- The statement from a bound on the operand. -/
theorem of_rnd_lt (i : Instr) (h : i.wf = true → i.rnd < 16) : Statement i := fun hw =>
  ⟨rsvdField_encode i, opField_encode i, by
    rw [rndField_encode, BitVec.toNat_ofNat]
    exact Nat.mod_eq_of_lt (h hw)⟩

theorem nop : Statement .nop := of_rnd_lt _ fun _ => by decide
theorem expandKey : Statement .expandKey := of_rnd_lt _ fun _ => by decide
theorem encState : Statement .encState := of_rnd_lt _ fun _ => by decide
theorem decState : Statement .decState := of_rnd_lt _ fun _ => by decide
theorem subBytes : Statement .subBytes := of_rnd_lt _ fun _ => by decide
theorem invSubBytes : Statement .invSubBytes := of_rnd_lt _ fun _ => by decide
theorem shiftRows : Statement .shiftRows := of_rnd_lt _ fun _ => by decide
theorem invShiftRows : Statement .invShiftRows := of_rnd_lt _ fun _ => by decide
theorem mixColumns : Statement .mixColumns := of_rnd_lt _ fun _ => by decide
theorem invMixColumns : Statement .invMixColumns := of_rnd_lt _ fun _ => by decide
theorem addRoundKey (rnd : Nat) : Statement (.addRoundKey rnd) :=
  of_rnd_lt _ fun h => by simpa [Instr.wf, Instr.rnd] using h
theorem gfMul : Statement .gfMul := of_rnd_lt _ fun _ => by decide
theorem msgStart : Statement .msgStart := of_rnd_lt _ fun _ => by decide
theorem msgBlock : Statement .msgBlock := of_rnd_lt _ fun _ => by decide

end Sys2Proof.Laws.EncodeFields
end

