-- ==== Sys2Proof/Laws/RoundEngine.lean ====
section
/-! SUPPORT. Sequences of round transformations: composition, one event each, and the numbers of them in Cipher and
InvCipher (43_round_engine.md R190, R191). -/

namespace Sys2Proof.Machine

theorem runSteps_append (key : Nat → Block) (xs ys : List RoundStep) (s : Block) :
    runSteps key (xs ++ ys) s =
      ((runSteps key ys (runSteps key xs s).1).1,
        (runSteps key xs s).2 ++ (runSteps key ys (runSteps key xs s).1).2) := by
  induction xs generalizing s with
  | nil => simp [runSteps]
  | cons x xs ih => simp [runSteps, ih]

theorem runSteps_events_length (key : Nat → Block) (xs : List RoundStep) (s : Block) :
    (runSteps key xs s).2.length = xs.length := by
  induction xs generalizing s with
  | nil => rfl
  | cons x xs ih => simp [runSteps, ih]

theorem cipherSteps_length {nr : Nat} (h : 1 ≤ nr) : (cipherSteps nr).length = 4 * nr := by
  simp [cipherSteps, forwardRound]
  omega

theorem invCipherSteps_length {nr : Nat} (h : 1 ≤ nr) : (invCipherSteps nr).length = 4 * nr := by
  simp [invCipherSteps, inverseRound]
  omega

theorem invShiftRows_shiftRows (s : Block) : invShiftRows (shiftRows s) = s := rfl

theorem shiftRows_invShiftRows (s : Block) : shiftRows (invShiftRows s) = s := rfl

theorem addRoundKey_addRoundKey (s k : Block) : addRoundKey (addRoundKey s k) k = s := xorBlock_xorBlock s k

end Sys2Proof.Machine
end

