-- ==== Sys2Proof/Tests/Slice0.lean ====
section
/-! SUPPORT. Tests of the model on single steps, expected values from spec/95_test_vectors.md (V<n>) and the opcode map
of 30_encoding.md R103; and, for each statement with hypotheses, a state and operands that meet all of them. -/

namespace Sys2Proof.Tests

open Sys2Proof.Machine

/-! ## Helpers -/

/-- A view of the next state, where there is one. -/
def look {α : Type} (f : State → α) (o : Host.Outcome State Fault Refusal) : Option α :=
  match o with
  | .next t => some (f t)
  | .fault _ => none
  | .refused _ => none

/-- The state after a command that completes. -/
def after (i : Instr) (s : State) : State :=
  match exec i s with
  | .next t => t
  | .fault _ => s
  | .refused _ => s

/-- One command word, run as the next step. -/
def run1 {α : Type} (f : State → α) (w : Nat) (s : State) : Option α := look f (step (s.withFetchWord 32 w))

/-- The block p of spec/95_test_vectors.md, as register words. -/
def blockP : Quad := ⟨0x00112233, 0x44556677, 0x8899aabb, 0xccddeeff⟩

/-- Reset, with K128 (V21) in KEY0..3 and KEY_LEN = 16. -/
def keyed : State :=
  { State.reset with
    keyLen := 16, key := #v[0x00010203, 0x04050607, 0x08090a0b, 0x0c0d0e0f, 0, 0, 0, 0] }

/-- Reset, with the key of V20 and V30 and the IV of V30. -/
def keyedCbc : State :=
  { State.reset with
    keyLen := 16, key := #v[0x2b7e1516, 0x28aed2a6, 0xabf71588, 0x09cf4f3c, 0, 0, 0, 0],
    iv := ⟨0x00010203, 0x04050607, 0x08090a0b, 0x0c0d0e0f⟩, msgLen := 0x20, ctrl := 6 }

/-- K128 expanded, STATE = p. -/
def expanded : State := { after .expandKey keyed with state := blockP }

/-- The message of V30's first row open, DIN = P1. -/
def opened : State :=
  { after .msgStart keyedCbc with din := ⟨0x6bc1bee2, 0x2e409f96, 0xe93d7e11, 0x7393172a⟩ }

/-- An idle core whose host acts so next. -/
def hosted (acts : List HostAction) : State := { State.reset with inputs := acts }

/-- A core with the word `w` in progress for `n` more turns. -/
def waiting (w : Word) (n : Nat) (acts : List HostAction) : State :=
  { State.reset with inputs := acts, pending := some ⟨w, n⟩ }

/-! ## WellFormed -/

theorem test_wf_round_fifteen : (Instr.addRoundKey 15).wf = true := by decide

/-- RND has four bits (30_encoding.md R100). -/
theorem test_wf_refuses_round_sixteen : (Instr.addRoundKey 16).wf = false := by decide

/-! ## Decoding: RSVD, RND and OP written out -/

/-- A CMD word from its fields (30_encoding.md R100). -/
def fields (rsvd : BitVec 20) (rnd : BitVec 4) (op : BitVec 8) : Word := rsvd ++ rnd ++ op

theorem test_decode_nop : decode (fields 0 0b0000 0b00000000) = .ok .nop := by decide
theorem test_decode_expandKey : decode (fields 0 0b0000 0b00000001) = .ok .expandKey := by decide
theorem test_decode_encState : decode (fields 0 0b0000 0b00000010) = .ok .encState := by decide
theorem test_decode_decState : decode (fields 0 0b0000 0b00000011) = .ok .decState := by decide
theorem test_decode_subBytes : decode (fields 0 0b0000 0b00000100) = .ok .subBytes := by decide
theorem test_decode_invSubBytes : decode (fields 0 0b0000 0b00000101) = .ok .invSubBytes := by decide
theorem test_decode_shiftRows : decode (fields 0 0b0000 0b00000110) = .ok .shiftRows := by decide
theorem test_decode_invShiftRows : decode (fields 0 0b0000 0b00000111) = .ok .invShiftRows := by decide
theorem test_decode_mixColumns : decode (fields 0 0b0000 0b00001000) = .ok .mixColumns := by decide
theorem test_decode_invMixColumns : decode (fields 0 0b0000 0b00001001) = .ok .invMixColumns := by decide
theorem test_decode_addRoundKey : decode (fields 0 0b1110 0b00001010) = .ok (.addRoundKey 14) := by decide
theorem test_decode_gfMul : decode (fields 0 0b0000 0b00001011) = .ok .gfMul := by decide
theorem test_decode_msgStart : decode (fields 0 0b0000 0b00010000) = .ok .msgStart := by decide
theorem test_decode_msgBlock : decode (fields 0 0b0000 0b00010001) = .ok .msgBlock := by decide

theorem test_decode_rejects_rsvd : decode (fields 1 0b0000 0b00001010) = .error .reservedBits := by decide
theorem test_decode_rejects_rnd : decode (fields 0 0b0001 0b00001011) = .error .reservedRnd := by decide
theorem test_decode_rejects_gap : decode (fields 0 0b0000 0b00001100) = .error .reservedOpcode := by decide
theorem test_decode_rejects_last : decode (fields 0 0b0000 0b00010010) = .error .reservedOpcode := by decide

theorem test_decodeTableWord : decodeTableWord 32 0x0000000B = some .gfMul := by decide

/-! ## Commands -/

/-- 45_control.md R250. -/
theorem test_nop_clears_err : run1 (·.err) 0x00 { State.reset with err := 6 } = some 0 := by decide

/-- V13. -/
theorem test_gfMul : run1 (·.gfRes) 0x0B { State.reset with gfOpnd := 0x8357 } = some 0xC1 := by decide

/-- V13: an inverse pair. -/
theorem test_gfMul_inverse : run1 (·.gfRes) 0x0B { State.reset with gfOpnd := 0xCA53 } = some 0x01 := by decide

/-- V13: RND ≠ 0 is illegal. -/
theorem test_illegal : run1 (fun t => (t.err, t.gfRes)) 0x10B { State.reset with gfOpnd := 0x8357 } = some (4, 0) := by
  decide

/-- V15. -/
theorem test_subBytes : run1 (·.state) 0x04 { State.reset with state := blockP } =
    some ⟨0x638293c3, 0x1bfc33f5, 0xc4eeacea, 0x4bc12816⟩ := by decide +kernel

/-- V15. -/
theorem test_invSubBytes : run1 (·.state) 0x05 { State.reset with state := blockP } =
    some ⟨0x52e39466, 0x86edd302, 0x97f962fe, 0x27c9997d⟩ := by decide +kernel

/-- V42. -/
theorem test_shiftRows : run1 (·.state) 0x06 { State.reset with state := blockP } =
    some ⟨0x0055aaff, 0x4499ee33, 0x88dd2277, 0xcc1166bb⟩ := by decide +kernel

/-- V42. -/
theorem test_invShiftRows : run1 (·.state) 0x07 { State.reset with state := blockP } =
    some ⟨0x00ddaa77, 0x4411eebb, 0x885522ff, 0xcc996633⟩ := by decide +kernel

/-- V43. -/
theorem test_mixColumns : run1 (·.state) 0x08
    { State.reset with state := ⟨0xdb135345, 0xf20a225c, 0xd4d4d4d5, 0x2d26314c⟩ } =
    some ⟨0x8e4da1bc, 0x9fdc589d, 0xd5d5d7d6, 0x4d7ebdf8⟩ := by decide +kernel

/-- V43. -/
theorem test_invMixColumns : run1 (·.state) 0x09 { State.reset with state := blockP } =
    some ⟨0xaaff88dd, 0xeebbcc99, 0x22770055, 0x66334411⟩ := by decide +kernel

/-- V26, V20: STATUS but for LAST_OP, and the last round key. -/
theorem test_expandKey : run1 (fun t => (statusWord t, t.rk[43], t.rk[44])) 0x01 keyedCbc =
    some (0x0100A002, 0xb6630ca6, 0) := by decide +kernel

/-- V26: a length the core does not accept. -/
theorem test_expandKey_length : run1 (fun t => (t.err, t.ksValid, t.doutValid)) 0x01
    { State.reset with keyLen := 17, doutValid := true } = some (2, false, false) := by decide

/-- V44. -/
theorem test_addRoundKey : run1 (·.state) 0xA0A expanded =
    some ⟨0x13003f4c, 0xa7c12c60, 0x7b9e0d30, 0x81f6de3a⟩ := by decide +kernel

/-- V44: r = 11 with NR = 10. -/
theorem test_addRoundKey_bad_round : run1 (fun t => (statusWord t, t.state)) 0xB0A expanded =
    some (0x0A00A502, blockP) := by decide +kernel

/-- V45. -/
theorem test_encState : run1 (·.state) 0x02 expanded =
    some ⟨0x69c4e0d8, 0x6a7b0430, 0xd8cdb780, 0x70b4c55a⟩ := by decide +kernel

/-- V45. -/
theorem test_encState_no_schedule : run1 statusWord 0x02 State.reset = some 0x02000300 := by decide +kernel

/-- V1: the known answer backwards. -/
theorem test_decState : run1 (·.state) 0x03
    { expanded with state := ⟨0x69c4e0d8, 0x6a7b0430, 0xd8cdb780, 0x70b4c55a⟩ } = some blockP := by decide +kernel

/-- V30, first row. -/
theorem test_msgStart : run1 (fun t => (statusWord t, t.blocksLeft, t.cv)) 0x10 keyedCbc =
    some (0x1002A006, 2, ⟨0x00010203, 0x04050607, 0x08090a0b, 0x0c0d0e0f⟩) := by decide +kernel

/-- V36: a failed MSG_START ends the open message. -/
theorem test_msgStart_ends_message : run1 (fun t => (t.err, t.msgActive, t.blocksLeft)) 0x10
    { opened with msgLen := 8 } = some (1, false, 0) := by decide +kernel

/-- V31. -/
theorem test_msgBlock : run1 (fun t => (statusWord t, t.dout, t.cv)) 0x11 opened =
    some (0x1102A00E, ⟨0x7649abac, 0x8119b246, 0xcee98e9b, 0x12e9197d⟩,
      ⟨0x7649abac, 0x8119b246, 0xcee98e9b, 0x12e9197d⟩) := by decide +kernel

/-- V36. -/
theorem test_msgBlock_no_message : run1 statusWord 0x11 State.reset = some 0x11000600 := by decide +kernel

/-! ## The bus -/

/-- V13: GF_OPND[31:16] reads 0. -/
theorem test_gfOpnd_masks : busRead 0x018 (busWrite 0x018 0x12348357 State.reset) = 0x00008357 := by decide +kernel

/-- 20_memory.md R71. -/
theorem test_halfword_is_a_bus_error : step (hosted [.read .half 0x008]) = .fault .busError := rfl

/-! ## Witnesses: states and operands that meet a statement's hypotheses, one for each clause, at the ends of their
ranges. A statement without hypotheses has none. -/

theorem witness_DecodeOfEncodeIsTheCommand : (Instr.addRoundKey 0).wf = true ∧ (Instr.addRoundKey 15).wf = true ∧
    Instr.msgBlock.wf = true := by decide

theorem witness_EncodeOfDecodeIsTheWord : decode 0x00000F0A = .ok (.addRoundKey 15) ∧
    decode 0x00000011 = .ok .msgBlock := by decide

theorem witness_LegalWordsAreTheOpcodeRows : (∀ n, Instr.nop ≠ .addRoundKey n) ∧
    (∃ r ∈ opRows, ∃ r' ∈ opRows, r.accepts 0x00000F0A = true ∧ r'.accepts 0x00000F0A = true) :=
  ⟨by simp, by decide⟩

theorem witness_IssueSetsBusyAndCompletionClearsIt :
    ((hosted [.write .word 0x004 0x01]).rstN = true ∧ (hosted [.write .word 0x004 0x01]).pending = none ∧
      (hosted [.write .word 0x004 0x01]).inputs = .write .word 0x004 0x01 :: []) ∧
    (waiting 0x01 0 []).pending = some ⟨0x01, 0⟩ := by decide

theorem witness_StepCompletesTheDecodedCommand :
    ((waiting 0x0B 0 []).pending = some ⟨0x0B, 0⟩ ∧ decode 0x0B = .ok .gfMul) ∧
    (waiting 0x0B 1 []).pending = some ⟨0x0B, 0 + 1⟩ ∧ State.reset.pending = none := by decide

theorem witness_IllegalWordsCompleteWithErrorFour :
    (∀ v ∈ ([0x0C, 0x0F, 0x12, 0xFF] : List Word),
      (0x0C ≤ (v.extractLsb' 0 8).toNat ∧ (v.extractLsb' 0 8).toNat ≤ 0x0F) ∨ 0x12 ≤ (v.extractLsb' 0 8).toNat) ∧
    ((waiting 0x0C 0 []).pending = some ⟨0x0C, 0⟩ ∧ decode 0x0C = .error .reservedOpcode) ∧
    ((hosted [.write .word 0x004 0x0C]).rstN = true ∧ (hosted [.write .word 0x004 0x0C]).pending = none ∧
      (hosted [.write .word 0x004 0x0C]).inputs = .write .word 0x004 0x0C :: []) ∧
    State.reset.nr.toNat < 15 ∧ { State.reset with nr := 14 }.nr.toNat < 15 :=
  ⟨by simp, by decide, by decide, by decide, by decide⟩

theorem witness_NopOnlyClearsTheError :
    (0x00000100 : Word).extractLsb' 0 8 = 0x00 ∧ (0x00000100 : Word) ≠ 0 ∧
    (0x80000000 : Word).extractLsb' 0 8 = 0x00 ∧ (0x80000000 : Word) ≠ 0 ∧
    ((hosted [.write .word 0x004 0]).rstN = true ∧ (hosted [.write .word 0x004 0]).pending = none ∧
      (hosted [.write .word 0x004 0]).inputs = .write .word 0x004 0 :: []) := by decide

/-- Any operands are allowed: the clauses' own, and two that are swapped. -/
theorem witness_GfMulWritesTheProduct :
    ((0x0000010B : Word).extractLsb' 0 8 = 0x0B ∧ (0x0000010B : Word) ≠ 0x0000000B) ∧
    ((hosted [.write .word 0x004 0x0B]).rstN = true ∧ (hosted [.write .word 0x004 0x0B]).pending = none ∧
      (hosted [.write .word 0x004 0x0B]).inputs = .write .word 0x004 0x0B :: []) ∧
    (∀ s : State, ∃ t, exec .gfMul s = .next t) ∧
    (∃ s : State, s.gfOpnd.extractLsb' 0 8 = 0) ∧ (∃ s : State, s.gfOpnd.extractLsb' 8 8 = 0) ∧
    (∃ s : State, s.gfOpnd.extractLsb' 0 8 = 1) ∧ (∃ s : State, s.gfOpnd.extractLsb' 8 8 = 2) ∧
    (∃ s : State, s.gfOpnd = 0x0280) ∧ (∃ s : State, s.gfOpnd = 0xFFFF) ∧ (∃ s : State, s.gfOpnd = 0x8357) ∧
    (0x5783 : BitVec 16) = (0x8357 : BitVec 16).extractLsb' 0 8 ++ (0x8357 : BitVec 16).extractLsb' 8 8 :=
  ⟨by decide, by decide, fun _ => ⟨_, rfl⟩, ⟨State.reset, by decide⟩, ⟨State.reset, by decide⟩,
    ⟨{ State.reset with gfOpnd := 0x0001 }, by decide⟩, ⟨{ State.reset with gfOpnd := 0x0200 }, by decide⟩,
    ⟨{ State.reset with gfOpnd := 0x0280 }, rfl⟩, ⟨{ State.reset with gfOpnd := 0xFFFF }, rfl⟩,
    ⟨{ State.reset with gfOpnd := 0x8357 }, rfl⟩, by decide⟩

theorem witness_ProductObeysTheFieldLaws : gmul 0 0xFF = 0 ∧ gmul 0xFF 0 = 0 := by decide

theorem witness_TableIsTheAffineInverse : (0x01 : Byte) ≠ 0 ∧ (0xFF : Byte) ≠ 0 := by decide

theorem witness_KeyExpansionFollowsTheRecurrence :
    variant (List.replicate 16 (0 : Byte)).length = some (4, 10) ∧
    variant (List.replicate 24 (0 : Byte)).length = some (6, 12) ∧
    variant (List.replicate 32 (0 : Byte)).length = some (8, 14) ∧
    (3 < 4) ∧ (4 ≤ 43 ∧ 43 < 4 * (10 + 1)) ∧ (8 ≤ 59 ∧ 59 < 4 * (14 + 1)) := by decide

theorem witness_ExpandKeyStoresTheSchedule :
    variant keyed.keyLen.toNat = some (4, 10) ∧ variant { keyed with keyLen := 24 }.keyLen.toNat = some (6, 12) ∧
    variant { keyed with keyLen := 32 }.keyLen.toNat = some (8, 14) ∧
    (43 : Fin 60).val < 4 * (10 + 1) ∧ 4 * (10 + 1) ≤ (44 : Fin 60).val ∧ 4 * (12 + 1) ≤ (59 : Fin 60).val := by decide

/-- Two keys that differ beyond the key length alone. -/
theorem witness_ScheduleDependsOnTheKeyAlone :
    variant keyed.keyLen.toNat = some (4, 10) ∧
    { keyed with key := keyed.key.set 4 0xFFFFFFFF }.keyLen = keyed.keyLen ∧
    (∀ j : Fin 8, j.val < 4 → { keyed with key := keyed.key.set 4 0xFFFFFFFF }.key[j] = keyed.key[j]) ∧
    (∃ t, exec .expandKey keyed = .next t) ∧
    ∃ t, exec .expandKey { keyed with key := keyed.key.set 4 0xFFFFFFFF } = .next t :=
  ⟨by decide, by decide, by decide, ⟨_, rfl⟩, ⟨_, rfl⟩⟩

theorem witness_KeyScheduleEventsInOrder :
    variant (List.replicate 16 (0 : Byte)).length = some (4, 10) ∧
    variant (List.replicate 24 (0 : Byte)).length = some (6, 12) ∧
    variant (List.replicate 32 (0 : Byte)).length = some (8, 14) ∧
    variant keyedCbc.keyLen.toNat = some (4, 10) ∧ keyedCbc.msgLen ≠ 0 ∧ keyedCbc.msgLen.toNat % 16 = 0 := by decide

theorem witness_AddRoundKeyXorsTheRoundKey :
    { State.reset with ksValid := true, nr := 14 }.ksValid = true ∧
    14 ≤ { State.reset with ksValid := true, nr := 14 }.nr.toNat ∧
    0 ≤ { State.reset with ksValid := true, nr := 14 }.nr.toNat ∧
    { State.reset with ksValid := true, nr := 14 }.nr.toNat ≤ 14 := by decide

theorem witness_CipherRunsTheRoundsInOrder : 1 ≤ 14 ∧ (1 ≤ 1 ∧ 1 < 14) ∧ (1 ≤ 13 ∧ 13 < 14) := by decide

theorem witness_InvCipherRunsTheRoundsInReverse : 1 ≤ 14 ∧ (1 ≤ 1 ∧ 1 < 14) ∧ (1 ≤ 13 ∧ 13 < 14) := by decide

theorem witness_BlockCommandsReplaceTheState : expanded.ksValid = true := by decide +kernel

theorem witness_SingleStepsComposeToTheBlockCommands : (expanded.ksValid = true ∧ expanded.nr = 10) ∧
    ∀ n ∈ ([10, 12, 14] : List (BitVec 4)), { expanded with nr := n }.nr = 10 ∨ { expanded with nr := n }.nr = 12 ∨
      { expanded with nr := n }.nr = 14 := by decide +kernel

theorem witness_MsgStartOpensAMessage :
    (keyedCbc.msgLen ≠ 0 ∧ keyedCbc.msgLen.toNat % 16 = 0 ∧ variant keyedCbc.keyLen.toNat = some (4, 10)) ∧
    keyedCbc.ctrl.getLsbD 2 = true ∧ { keyedCbc with ctrl := 0 }.ctrl.getLsbD 2 = false ∧
    ({ keyedCbc with msgLen := 0xFFFFFFF0 }.msgLen ≠ 0 ∧
      { keyedCbc with msgLen := 0xFFFFFFF0 }.msgLen.toNat % 16 = 0) := by decide

theorem witness_MsgStartChecksInOrder :
    ((0x00000110 : Word).extractLsb' 0 8 = 0x10 ∧ decode 0x00000110 = .error .reservedRnd) ∧
    State.reset.msgLen = 0 ∧ { State.reset with msgLen := 1 }.msgLen.toNat % 16 ≠ 0 ∧
    { State.reset with msgLen := 0xFFFFFFFF }.msgLen.toNat % 16 ≠ 0 ∧
    ({ keyedCbc with keyLen := 0 }.msgLen ≠ 0 ∧ { keyedCbc with keyLen := 0 }.msgLen.toNat % 16 = 0 ∧
      { keyedCbc with keyLen := 0 }.keyLen ≠ 16 ∧ { keyedCbc with keyLen := 0 }.keyLen ≠ 24 ∧
      { keyedCbc with keyLen := 0 }.keyLen ≠ 32) := by decide

theorem witness_MsgBlockChainsByDirectionAndMode : opened.msgActive = true ∧
    (opened.msgDir = .encrypt ∧ opened.msgMode = .cbc) ∧
    ({ opened with msgMode := .ecb }.msgActive = true ∧ { opened with msgMode := .ecb }.msgMode = .ecb) ∧
    ({ opened with msgDir := .decrypt }.msgActive = true ∧ { opened with msgDir := .decrypt }.msgDir = .decrypt) := by
  decide +kernel

theorem witness_LastBlockEndsTheMessage :
    ({ opened with blocksLeft := 1 }.msgActive = true ∧ { opened with blocksLeft := 1 }.blocksLeft = 1) ∧
    State.reset.msgActive = false := by decide +kernel

theorem witness_DecryptedMessageIsTheOriginal : keyedCbc.msgLen ≠ 0 ∧
    keyedCbc.msgLen.toNat = 16 * [zeroBlock, zeroBlock].length ∧ variant keyedCbc.keyLen.toNat = some (4, 10) ∧
    keyedCbc.ctrl.getLsbD 0 = false := by decide

/-- Two messages with the same first block, in ECB and in CBC. -/
theorem witness_OutputsDependOnNoLaterBlock :
    ({ opened with msgMode := .ecb }.msgMode = .ecb ∧
      [zeroBlock, zeroBlock][0]? = [zeroBlock, blkOf blockP][0]? ∧
      (∃ r, passBlocks [zeroBlock, zeroBlock] { opened with msgMode := .ecb } = some r) ∧
      ∃ r, passBlocks [zeroBlock, blkOf blockP] { opened with msgMode := .ecb } = some r) ∧
    ([zeroBlock, zeroBlock].take (0 + 1) = [zeroBlock, blkOf blockP].take (0 + 1) ∧
      (∃ r, passBlocks [zeroBlock, zeroBlock] opened = some r) ∧
      ∃ r, passBlocks [zeroBlock, blkOf blockP] opened = some r) := by
  simp only [← Option.isSome_iff_exists]
  decide +kernel

/-- An accepted message, one with a key and one with an input the core rejects, and both kinds of key. -/
theorem witness_MessageProgramReadsTheChainedBlocks :
    let m := messageProgram .encrypt .cbc (List.replicate 16 0) (List.replicate 16 0) (some zeroBlock)
    let noKey := messageProgram .encrypt .cbc (List.replicate 16 0) [0] none
    let noInput := messageProgram .decrypt .ecb [] (List.replicate 16 0) none
    ((List.replicate 32 (0 : Byte)).length % 16 = 0 ∧ 1 < (List.replicate 32 (0 : Byte)).length / 16) ∧
    ((hosted m).rstN = true ∧ (hosted m).pending = none ∧ (hosted m).inputs = m ∧
      variant (List.replicate 16 (0 : Byte)).length = some (4, 10) ∧ 0 < (List.replicate 16 (0 : Byte)).length ∧
      (List.replicate 16 (0 : Byte)).length % 16 = 0 ∧ (List.replicate 16 (0 : Byte)).length < 2 ^ 32) ∧
    ((hosted noKey).inputs = noKey ∧ variant [(0 : Byte)].length = none) ∧
    ((hosted noInput).inputs = noInput ∧ ([] : List Byte).length = 0 ∧ ([] : List Byte).length < 2 ^ 32) ∧
    ((hosted (expandKeyProgram (List.replicate 32 0))).inputs = expandKeyProgram (List.replicate 32 0) ∧
      variant (List.replicate 32 (0 : Byte)).length = some (8, 14)) ∧
    (hosted (expandKeyProgram [0])).inputs = expandKeyProgram [0] :=
  ⟨by decide, ⟨rfl, rfl, rfl, by decide, by decide, by decide, by decide⟩, ⟨rfl, by decide⟩,
    ⟨rfl, rfl, by decide⟩, ⟨rfl, by decide⟩, rfl⟩

/-- Each code arises; the last is success. -/
theorem witness_ErrorCodesHaveTheirCauses :
    look (·.err) (complete 0x10 State.reset) = some 1 ∧ look (·.err) (complete 0x01 State.reset) = some 2 ∧
    look (·.err) (complete 0x10 { State.reset with msgLen := 0x10 }) = some 2 ∧
    look (·.err) (complete 0x02 State.reset) = some 3 ∧ look (·.err) (complete 0x12 State.reset) = some 4 ∧
    look (·.err) (complete 0xB0A expanded) = some 5 ∧ look (·.err) (complete 0x11 State.reset) = some 6 ∧
    look (·.err) (complete 0xA0A expanded) = some 0 := by decide +kernel

/-- A failed MSG_BLOCK, and a failed MSG_START. -/
theorem witness_FailedCommandsHaveNoPartialResult :
    (∃ t, complete 0x11 State.reset = .next t ∧ t.err ≠ 0) ∧ decode 0x11 ≠ .ok .msgStart ∧
    (∃ t, complete 0x10 State.reset = .next t ∧ t.err ≠ 0) ∧ decode 0x10 = .ok .msgStart :=
  ⟨⟨_, rfl, by decide⟩, by decide, ⟨_, rfl, by decide⟩, by decide⟩

theorem witness_ErrorsAreNotSticky : ∃ t, complete 0x11 State.reset = .next t ∧ t.err ≠ 0 := ⟨_, rfl, by decide⟩

theorem witness_CommandsWriteTheirOwnRegisters : Instr.nop ≠ .gfMul ∧ Instr.nop ≠ .expandKey ∧
    Instr.nop ≠ .msgStart ∧ Instr.nop ≠ .msgBlock := by decide

/-- MSG_BLOCK changes CV and DOUT, EXPAND_KEY changes RK. -/
theorem witness_OnlyTheirCommandsReachCvRkAndDout :
    run1 (fun t => decide (t.cv ≠ opened.cv ∧ t.dout ≠ opened.dout)) 0x11 opened = some true ∧
    run1 (fun t => decide (t.rk ≠ keyed.rk)) 0x01 keyed = some true := by decide +kernel

theorem witness_StepsKeepTheStatusInvariants : StatusInv opened ∧ ∃ t, step opened = .next t :=
  ⟨by unfold StatusInv; decide +kernel, opened, rfl⟩

theorem witness_StepsKeepTheScheduleWhole :
    (ScheduleInv State.reset ∧ ResetInv State.reset ∧ ∃ t, step State.reset = .next t) ∧
    (ScheduleInv expanded ∧ ResetInv expanded ∧ ∃ t, step expanded = .next t) := by
  have hv : expanded.ksValid = true := by decide +kernel
  refine ⟨⟨⟨nofun, fun _ => rfl⟩, fun _ => rfl, _, rfl⟩, ⟨fun _ => ⟨keyed.key, 16, 4, 10, rfl, ?_, rfl⟩, ?_⟩,
    fun _ => rfl, _, rfl⟩
  · decide +kernel
  · simp [hv]

/-- An idle core whose host writes CMD is busy after the step. -/
theorem witness_ResetStateIsIdleAndZero : (hosted [.write .word 0x004 0x01]).pending = none ∧
    ∃ t, step (hosted [.write .word 0x004 0x01]) = .next t ∧ busy t = true := ⟨rfl, _, rfl, rfl⟩

theorem witness_PinResetClearsTheCore :
    ((∀ v, (hosted [.driveRst false]).pending ≠ some ⟨v, 0⟩) ∧
      (hosted [.driveRst false]).inputs = .driveRst false :: []) ∧
    ((∀ v, (waiting 0x01 1 [.driveRst false]).pending ≠ some ⟨v, 0⟩) ∧
      (waiting 0x01 1 [.driveRst false]).inputs = .driveRst false :: []) :=
  ⟨⟨nofun, rfl⟩, by simp [waiting], rfl⟩

theorem witness_AccessesDuringResetFault :
    (∀ a ∈ [HostAction.read .word 0x008, .write .word 0x004 0x01, .poll, .driveRst true],
      { hosted [a] with rstN := false }.rstN = false ∧ { hosted [a] with rstN := false }.pending = none ∧
      { hosted [a] with rstN := false }.inputs = a :: []) := by decide

theorem witness_RegistersKeepTheirAccessKinds : State.reset.pending = none ∧
    (∀ off ∈ ([0x020, 0x05C, 0x070, 0x07C] : List (BitVec 9)), off.extractLsb' 0 2 = 0 ∧
      ((0x020 ≤ off.toNat ∧ off.toNat ≤ 0x05C) ∨ (0x070 ≤ off.toNat ∧ off.toNat ≤ 0x07C))) ∧
    (∀ off ∈ ([0x008, 0x014, 0x01C, 0x060, 0x06C, 0x080, 0x08C, 0x100, 0x1EC] : List (BitVec 9)),
      off.extractLsb' 0 2 = 0 ∧
      (off = 0x008 ∨ off = 0x014 ∨ off = 0x01C ∨ (0x060 ≤ off.toNat ∧ off.toNat ≤ 0x06C) ∨
        (0x080 ≤ off.toNat ∧ off.toNat ≤ 0x08C) ∨ (0x100 ≤ off.toNat ∧ off.toNat ≤ 0x1EC))) := by decide

theorem witness_RegisterWritesStayApart : (0x05C : BitVec 9).extractLsb' 0 2 = 0 ∧
    (0x060 : BitVec 9).extractLsb' 0 2 = 0 ∧ (0x05C : BitVec 9) ≠ 0x060 ∧ (0x05C : BitVec 9) ≠ 0x004 := by decide

theorem witness_AccessesMustBeAlignedWords :
    (∀ a ∈ [(AccessSize.byte, (0x000 : BitVec 9)), (.half, 0x002), (.word, 0x001), (.word, 0x1FF)],
      (hosted [.read a.1 a.2]).rstN = true ∧ (a.1 ≠ .word ∨ a.2.extractLsb' 0 2 ≠ 0) ∧
      (hosted [.read a.1 a.2]).inputs = .read a.1 a.2 :: [] ∧
      (hosted [.write a.1 a.2 0]).inputs = .write a.1 a.2 0 :: []) ∧
    (∀ w, (hosted [.read .half 0x002]).pending ≠ some ⟨w, 0⟩) := ⟨by decide, nofun⟩

theorem witness_ReservedOffsetsReadZero :
    ∀ off ∈ ([0x090, 0x0FC, 0x1F0, 0x1FC] : List (BitVec 9)),
      (hosted [.read .word off]).rstN = true ∧ (hosted [.read .word off]).pending = none ∧
      off.extractLsb' 0 2 = 0 ∧
      ((0x090 ≤ off.toNat ∧ off.toNat ≤ 0x0FC) ∨ (0x1F0 ≤ off.toNat ∧ off.toNat ≤ 0x1FC)) ∧
      (hosted [.read .word off]).inputs = .read .word off :: [] ∧
      (hosted [.write .word off 1]).inputs = .write .word off 1 :: [] := by decide

theorem witness_AccessesHaveOnlyTheirSideEffects :
    ((hosted [.read .word 0x1FC]).rstN = true ∧ (hosted [.read .word 0x1FC]).pending = none ∧
      (0x1FC : BitVec 9).extractLsb' 0 2 = 0 ∧ (hosted [.read .word 0x1FC]).inputs = .read .word 0x1FC :: []) ∧
    (∀ off ∈ ([0x000, 0x004, 0x018, 0x07C, 0x1FC] : List (BitVec 9)),
      (hosted [.write .word off 5]).rstN = true ∧ (hosted [.write .word off 5]).pending = none ∧
      off.extractLsb' 0 2 = 0 ∧ (hosted [.write .word off 5]).inputs = .write .word off 5 :: []) ∧
    ((0x000 : BitVec 9).extractLsb' 0 2 = 0 ∧ (0x000 : BitVec 9) ≠ 0x004) := by decide

theorem witness_ReadsWhileBusyAreFree :
    ∀ off ∈ ([0x004, 0x008, 0x1FC] : List (BitVec 9)),
      (waiting 0x01 1 [.read .word off]).rstN = true ∧
      (waiting 0x01 1 [.read .word off]).pending = some ⟨0x01, 0 + 1⟩ ∧ off.extractLsb' 0 2 = 0 ∧
      (waiting 0x01 1 [.read .word off]).inputs = .read .word off :: [] := by decide

theorem witness_WritesWhileBusyFault :
    ∀ off ∈ ([0x000, 0x004, 0x1FC] : List (BitVec 9)),
      (waiting 0x01 1 [.write .word off 5]).rstN = true ∧
      (waiting 0x01 1 [.write .word off 5]).pending = some ⟨0x01, 0 + 1⟩ ∧ off.extractLsb' 0 2 = 0 ∧
      (waiting 0x01 1 [.write .word off 5]).inputs = .write .word off 5 :: [] := by decide

/-- A digit at each end of the alphabet; and texts that spell bytes: an input of one byte, an empty key, an IV. -/
theorem witness_DriverRejectsMalformedText :
    ((hexDigit '0').isSome = true ∧ (hexDigit 'F').isSome = true) ∧
    (['a', 'B'].length = 2 * [(0xAB : Byte)].length ∧ ∀ k, k < [(0xAB : Byte)].length →
      ∃ x y, (['a', 'B'][2 * k]?).bind hexDigit = some x ∧ (['a', 'B'][2 * k + 1]?).bind hexDigit = some y ∧
        [(0xAB : Byte)][k]? = some (BitVec.ofNat 8 (16 * x + y))) ∧
    (([] : List Char).length = 2 * ([] : List Byte).length ∧ [(0xAB : Byte)].length < 2 ^ 32) ∧
    ((List.replicate 32 '0').length = 2 * (List.replicate 16 (0 : Byte)).length ∧
      ∀ k, k < (List.replicate 16 (0 : Byte)).length → ∃ x y, ((List.replicate 32 '0')[2 * k]?).bind hexDigit = some x ∧
        ((List.replicate 32 '0')[2 * k + 1]?).bind hexDigit = some y ∧
        (List.replicate 16 (0 : Byte))[k]? = some (BitVec.ofNat 8 (16 * x + y))) ∧
    ∀ r c : Fin 4, (List.replicate 16 (0 : Byte))[4 * c.val + r.val]? = some (blockAt zeroBlock r c) := by
  refine ⟨by decide, ⟨rfl, ?_⟩, by decide, ⟨rfl, ?_⟩, by decide⟩
  · intro k hk
    obtain rfl : k = 0 := by simpa using hk
    exact ⟨10, 11, by decide, by decide, by decide⟩
  · intro k hk
    have h : k < 16 := by simpa using hk
    refine ⟨0, 0, ?_, ?_, ?_⟩ <;> (revert k; decide)

/-- 60_exceptions.md R266: an odd number of digits, and a short IV, are rejected before any register write. -/
theorem test_driver_rejects : messageOfHex .encrypt .ecb ['0'] [] none = .error .invalidFormat ∧
    messageOfHex .encrypt .ecb [] [] (some ['0', '0']) = .error .invalidFormat := by decide

theorem witness_EveryCommandCompletes :
    (waiting 0x01 2 [.idle, .poll]).rstN = true ∧ (waiting 0x01 2 [.idle, .poll]).pending = some ⟨0x01, 2⟩ ∧
    (∀ a ∈ (waiting 0x01 2 [.idle, .poll]).inputs, a = .poll ∨ a = .idle) ∧
    (waiting 0x01 0 []).pending = some ⟨0x01, 0⟩ := by decide

theorem witness_PolledCommandsRunAsOneStep :
    (hosted [.write .word 0x004 0x01, .poll, .idle]).rstN = true ∧
    (hosted [.write .word 0x004 0x01, .poll, .idle]).pending = none ∧
    (hosted [.write .word 0x004 0x01, .poll, .idle]).inputs = .write .word 0x004 0x01 :: .poll :: [.idle] := by
  decide

/-- A host that polls, one that resets, and one that waits in reset. -/
theorem witness_DisciplinedHostsNeverFault :
    (ResetInv (hosted [.write .word 0x004 0x01, .read .word 0x008, .poll, .read .word 0x100]) ∧
      Disciplined (phaseOf (hosted [.write .word 0x004 0x01, .read .word 0x008, .poll, .read .word 0x100]))
        (hosted [.write .word 0x004 0x01, .read .word 0x008, .poll, .read .word 0x100]).inputs = true) ∧
    (ResetInv { hosted [.idle, .driveRst true, .poll] with rstN := false } ∧
      Disciplined (phaseOf { hosted [.idle, .driveRst true, .poll] with rstN := false })
        (hosted [.idle, .driveRst true, .poll]).inputs = true) :=
  ⟨⟨fun _ => rfl, by decide⟩, fun _ => rfl, by decide⟩

theorem witness_TraceIsObservationOnly : ∃ t, step (hosted [.idle]) = .next t := ⟨_, rfl⟩

/-- A block passed, a block encrypted, a command that fails, a single step, an expansion, and both modes. -/
theorem witness_EventCountsPerCommand :
    (StatusInv opened ∧ ∃ t, exec .msgBlock opened = .next t ∧ t.err = 0) ∧
    (StatusInv expanded ∧ ∃ t, exec .encState expanded = .next t ∧ t.err = 0) ∧
    (StatusInv State.reset ∧ ∃ t, exec .encState State.reset = .next t ∧ t.err ≠ 0) ∧
    (StatusInv State.reset ∧ ∃ t, exec .subBytes State.reset = .next t ∧ t.err = 0) ∧
    (StatusInv keyed ∧ ∃ t, exec .expandKey keyed = .next t ∧ t.err = 0) ∧
    (StatusInv { opened with msgMode := .ecb } ∧ { opened with msgMode := .ecb }.msgMode = .ecb ∧
      opened.msgMode = .cbc) := by
  have h1 : look (·.err) (exec .msgBlock opened) = some 0 := by decide +kernel
  have h2 : look (·.err) (exec .encState expanded) = some 0 := by decide +kernel
  refine ⟨⟨by unfold StatusInv; decide +kernel, ?_⟩, ⟨by unfold StatusInv; decide +kernel, ?_⟩,
    ⟨by unfold StatusInv; decide +kernel, _, rfl, by decide⟩, ⟨by unfold StatusInv; decide +kernel, _, rfl, rfl⟩,
    ⟨by unfold StatusInv; decide +kernel, _, rfl, rfl⟩, by unfold StatusInv; decide +kernel, rfl,
    by decide +kernel⟩
  · unfold look at h1
    split at h1 <;> simp_all
  · unfold look at h2
    split at h2 <;> simp_all

end Sys2Proof.Tests
end

/-! # The invariants of STATUS (10_state.md R37)

Every completion is one of a few shapes (`Completion`, said once by `complete_cases`). A shape either leaves the
fields the invariants speak of as they were (`SameStatus`), closes or opens a message, or counts a block of an open
one; each keeps the invariants, and so does each action of the host. -/

namespace Sys2Proof.Machine

/-! ## What a completion can do -/

/-- The state a completion from `s` leaves, with the guards under which the two that store a schedule and the one
that passes a block are reached. -/
inductive Completion (s : State) : State → Prop where
  /-- A command failed: only ERR, DOUT_VALID and BUSY are written (60_exceptions.md R262). -/
  | failed (e : ErrCode) : Completion s (raiseError e s)
  /-- A MSG_START failed, which ends the open message. -/
  | failedStart (e : ErrCode) : Completion s (raiseError e (endMessage s))
  /-- NOP. -/
  | nop : Completion s (succeed s)
  /-- GF_MUL. -/
  | gfMul : Completion s (succeed { s with gfRes := gmul (gfA s) (gfB s) })
  /-- A single-step command on STATE. -/
  | singleStep (st : RoundStep) : Completion s (stepState st s)
  /-- A whole-block command on STATE. -/
  | wholeBlock (steps : List RoundStep) (hks : s.ksValid = true) : Completion s (blockState steps s)
  /-- EXPAND_KEY. -/
  | expanded (nk nr : Nat) (hv : variant s.keyLen.toNat = some (nk, nr)) :
      Completion s (succeed (endMessage (expandAndStore nk nr s)))
  /-- MSG_START. -/
  | opened (nk nr : Nat) (hlen : msgLenOk s = true) (hv : variant s.keyLen.toNat = some (nk, nr)) :
      Completion s (succeed (openMessage (expandAndStore nk nr s)))
  /-- MSG_BLOCK. -/
  | passed (hm : s.msgActive = true) : Completion s (passDin s)

/-- Everything a command can do. -/
theorem exec_cases {i : Instr} {s t : State} (h : exec i s = .next t) : Completion s t := by
  cases i with
  | nop => cases h; exact .nop
  | gfMul => cases h; exact .gfMul
  | subBytes | invSubBytes | shiftRows | invShiftRows | mixColumns | invMixColumns => cases h; exact .singleStep _
  | expandKey =>
    simp only [exec, execExpandKey] at h
    split at h <;> cases h
    · exact .failed _
    · next hv => exact .expanded _ _ hv
  | encState | decState =>
    simp only [exec, execEncState, execDecState] at h
    split at h <;> cases h
    · exact .failed _
    · next hks => exact .wholeBlock _ (by simpa using hks)
  | addRoundKey r =>
    simp only [exec, execAddRoundKey] at h
    split at h
    · cases h; exact .failed _
    · split at h <;> cases h
      · exact .failed _
      · exact .singleStep _
  | msgStart =>
    simp only [exec, execMsgStart] at h
    split at h
    · cases h; exact .failedStart _
    · next hlen =>
      split at h <;> cases h
      · exact .failedStart _
      · next hv => exact .opened _ _ (by simpa using hlen) hv
  | msgBlock =>
    simp only [exec, execMsgBlock] at h
    split at h <;> cases h
    · exact .failed _
    · next hm => exact .passed (by simpa using hm)

/-- Everything the completion of an issued word can do. -/
theorem complete_cases {w : Word} {s t : State} (h : complete w s = .next t) : Completion s t := by
  cases hd : decode w with
  | ok i => exact exec_cases (by rwa [complete_ok hd] at h)
  | error e =>
    rw [complete_error hd] at h
    cases h
    exact .failed _

/-! ## The fields the invariants speak of -/

/-- The validity of the schedule, its rounds and the open message are as they were. -/
structure SameStatus (s t : State) : Prop where
  ksValid : t.ksValid = s.ksValid
  nr : t.nr = s.nr
  msgActive : t.msgActive = s.msgActive
  blocksLeft : t.blocksLeft = s.blocksLeft

/-- The invariants hold on where nothing but ERR changed, to a code there is. -/
theorem StatusInv.of_sameStatus {s t : State} (hs : StatusInv s) (hst : SameStatus s t) (he : t.err.toNat ≤ 6) :
    StatusInv t := by
  obtain ⟨hinvalid, hvalid, hopen, hclosed, -⟩ := hs
  simp only [StatusInv, hst.ksValid, hst.nr, hst.msgActive, hst.blocksLeft]
  exact ⟨hinvalid, hvalid, hopen, hclosed, he⟩

/-- The invariants of a state that has a schedule and ends a command with success. -/
theorem StatusInv.of_schedule {t : State} (hks : t.ksValid = true) (hnr : t.nr = 10 ∨ t.nr = 12 ∨ t.nr = 14)
    (hblocks : t.msgActive = true ↔ t.blocksLeft ≠ 0) (he : t.err = 0) : StatusInv t := by
  have hnr0 : t.nr ≠ 0 := by rcases hnr with h | h | h <;> simp [h]
  refine ⟨iff_of_false (by simp [hks]) hnr0, iff_of_true hks hnr, fun hm => ⟨hks, hblocks.1 hm⟩,
    fun hm => ?_, by simp [he]⟩
  simpa [hm] using hblocks

theorem StatusInv.err_le_six {s : State} (hs : StatusInv s) : s.err.toNat ≤ 6 := by
  obtain ⟨-, -, -, -, herr⟩ := hs
  exact herr

theorem reset_statusInv : StatusInv State.reset := by
  unfold StatusInv
  decide

theorem ErrCode.code_le_six (e : ErrCode) : (ErrCode.code e).toNat ≤ 6 := by
  cases e <;> decide

/-! ## Completions keep the invariants -/

theorem raiseError_keeps_statusInv {s : State} (e : ErrCode) (hs : StatusInv s) : StatusInv (raiseError e s) :=
  hs.of_sameStatus ⟨rfl, rfl, rfl, rfl⟩ (ErrCode.code_le_six e)

theorem succeed_keeps_statusInv {s : State} (hs : StatusInv s) : StatusInv (succeed s) :=
  hs.of_sameStatus ⟨rfl, rfl, rfl, rfl⟩ (ErrCode.code_le_six .ok)

theorem endMessage_keeps_statusInv {s : State} (hs : StatusInv s) : StatusInv (endMessage s) := by
  obtain ⟨hinvalid, hvalid, -, -, herr⟩ := hs
  exact ⟨hinvalid, hvalid, nofun, fun _ => rfl, herr⟩

/-- A stored schedule has 10, 12 or 14 rounds (42_key_schedule.md R160, R171). -/
theorem expandAndStore_nr {len nk nr : Nat} (hv : variant len = some (nk, nr)) (s : State) :
    (expandAndStore nk nr s).nr = 10 ∨ (expandAndStore nk nr s).nr = 12 ∨ (expandAndStore nk nr s).nr = 14 := by
  rcases variant_cases hv with ⟨-, -, rfl⟩ | ⟨-, -, rfl⟩ | ⟨-, -, rfl⟩
  · exact .inl rfl
  · exact .inr (.inl rfl)
  · exact .inr (.inr rfl)

/-- The block count of an accepted length fits BLOCKS_LEFT and is not 0 (10_state.md R38). -/
theorem msgBlocks_ne_zero {s : State} (hlen : msgLenOk s = true) : msgBlocks s ≠ 0 := by
  obtain ⟨hne, hmod⟩ : s.msgLen ≠ 0 ∧ s.msgLen.toNat % 16 = 0 := by simpa [msgLenOk] using hlen
  have hlt : s.msgLen.toNat < 2 ^ 32 := s.msgLen.isLt
  have hpos : s.msgLen.toNat ≠ 0 := fun h => hne (BitVec.eq_of_toNat_eq h)
  intro h
  have hcount : s.msgLen.toNat / 16 % 2 ^ 28 = 0 := by simpa [msgBlocks] using congrArg BitVec.toNat h
  omega

/-- EXPAND_KEY stores a schedule and closes the message (42_key_schedule.md R172). -/
theorem expanded_statusInv {s : State} {nk nr : Nat} (hv : variant s.keyLen.toNat = some (nk, nr)) :
    StatusInv (succeed (endMessage (expandAndStore nk nr s))) :=
  .of_schedule rfl (expandAndStore_nr hv s) (by simp) rfl

/-- MSG_START stores a schedule and opens a message of at least one block (44_mode_controller.md R222). -/
theorem opened_statusInv {s : State} {nk nr : Nat} (hlen : msgLenOk s = true)
    (hv : variant s.keyLen.toNat = some (nk, nr)) : StatusInv (succeed (openMessage (expandAndStore nk nr s))) :=
  .of_schedule rfl (expandAndStore_nr hv s) (iff_of_true rfl (msgBlocks_ne_zero hlen)) rfl

/-- MSG_BLOCK uses the open message's schedule, and leaves the message open as long as a block is left
(44_mode_controller.md R235). -/
theorem passDin_keeps_statusInv {s : State} (hm : s.msgActive = true) (hs : StatusInv s) : StatusInv (passDin s) := by
  obtain ⟨-, hvalid, hopen, -, -⟩ := hs
  have hks : s.ksValid = true := (hopen hm).1
  exact .of_schedule hks (hvalid.1 hks) decide_eq_true_iff rfl

theorem completion_keeps_statusInv {s t : State} (h : Completion s t) (hs : StatusInv s) : StatusInv t := by
  cases h with
  | failed e => exact raiseError_keeps_statusInv e hs
  | failedStart e => exact raiseError_keeps_statusInv e (endMessage_keeps_statusInv hs)
  | nop => exact succeed_keeps_statusInv hs
  | gfMul | singleStep | wholeBlock =>
    exact hs.of_sameStatus ⟨rfl, rfl, rfl, rfl⟩ (ErrCode.code_le_six .ok)
  | expanded nk nr hv => exact expanded_statusInv hv
  | opened nk nr hlen hv => exact opened_statusInv hlen hv
  | passed hm => exact passDin_keeps_statusInv hm hs

/-! ## The host's turns keep the invariants -/

theorem busWrite_sameStatus (off : BitVec 9) (v : Word) (s : State) : SameStatus s (busWrite off v s) := by
  obtain ⟨-, hks, hnr, -, -, -, hma, hbl, -⟩ := busWrite_frame off v s
  exact ⟨hks, hnr, hma, hbl⟩

theorem busWrite_err (off : BitVec 9) (v : Word) (s : State) : (busWrite off v s).err = s.err := by
  obtain ⟨-, -, -, -, -, -, -, -, -, herr, -⟩ := busWrite_frame off v s
  exact herr

theorem driveReset_keeps_statusInv {s : State} (high : Bool) (hs : StatusInv s) : StatusInv (driveReset high s) := by
  cases high with
  | false => exact reset_statusInv.of_sameStatus ⟨rfl, rfl, rfl, rfl⟩ (Nat.zero_le 6)
  | true => exact hs

theorem hostAct_keeps_statusInv {a : HostAction} {s t : State} (h : hostAct a s = .next t) (hs : StatusInv s) :
    StatusInv t := by
  rcases hostAct_cases h with ⟨-, rfl⟩ | ⟨z, off, -, -, -, -, rfl⟩ | ⟨z, off, -, -, -, -, rfl⟩ |
    ⟨z, off, v, -, -, -, -, rfl⟩ | ⟨-, -, -, rfl⟩ | ⟨-, -, -, rfl⟩ | ⟨high, -, rfl⟩
  · exact hs
  · exact hs
  · exact hs
  · exact hs.of_sameStatus (busWrite_sameStatus off v s) (by rw [busWrite_err]; exact hs.err_le_six)
  · exact hs
  · exact hs
  · exact driveReset_keeps_statusInv high hs

theorem hostTurn_keeps_statusInv {s t : State} (h : hostTurn s = .next t) (hs : StatusInv s) : StatusInv t := by
  rcases hostTurn_cases h with ⟨-, rfl⟩ | ⟨a, rest, -, ha⟩
  · exact hs
  · exact hostAct_keeps_statusInv ha hs

theorem step_keeps_statusInv {s t : State} (hs : StatusInv s) (h : step s = .next t) : StatusInv t := by
  rcases step_cases s with ⟨w, -, hw⟩ | ⟨w, n, -, hw⟩ | ⟨-, hw⟩ <;> rw [hw] at h
  · exact completion_keeps_statusInv (complete_cases h) hs
  · exact hostTurn_keeps_statusInv h hs
  · exact hostTurn_keeps_statusInv h hs

/-- Settles O40: the reset state has the invariants, and a completion and a turn of the host keep them. -/
theorem stepsKeepTheStatusInvariants : Obligations.StepsKeepTheStatusInvariants :=
  ⟨reset_statusInv, fun _ _ hs h => step_keeps_statusInv hs h⟩

end Sys2Proof.Machine

/-! # The bus while BUSY = 0 (20_memory.md R72, R79)

An aligned offset is that of its register, and the reserved offsets have none. An aligned access of an idle core is
its read or its write; a write changes registers the host may write and, at CMD, begins a command; at every other
register a second write of the same value does nothing more. -/

namespace Sys2Proof.Machine

/-! ## The register map by offsets -/

/-- The register at word `k` of the window has byte offset `4·k` (10_state.md R22). -/
theorem toNat_offset_of_regOfIndex {k : Nat} {r : Reg} (h : regOfIndex k = some r) :
    (Reg.offset r).toNat = 4 * k := by
  unfold regOfIndex at h
  split at h
  case h_9 =>
    split_ifs at h <;> cases h
    all_goals simp only [Reg.offset, BitVec.toNat_ofNat]; omega
  all_goals cases h; rfl

theorem offset_of_regAt {off : BitVec 9} {r : Reg} (ha : off.extractLsb' 0 2 = 0) (h : regAt off = some r) :
    Reg.offset r = off := by
  have hmod : off.toNat % 4 = 0 := by simpa using congrArg BitVec.toNat ha
  have hoff : (Reg.offset r).toNat = 4 * (off.toNat / 4) := toNat_offset_of_regOfIndex h
  exact BitVec.eq_of_toNat_eq (by omega)

theorem regAt_ne_cmd {off : BitVec 9} (ha : off.extractLsb' 0 2 = 0) (hne : off ≠ 0x004) : regAt off ≠ some .cmd :=
  fun h => hne (offset_of_regAt ha h).symm

/-- The words between CV3 and RK0 and those after RK59 hold no register. -/
theorem regOfIndex_reserved {k : Nat} (h : (36 ≤ k ∧ k < 64) ∨ 124 ≤ k) : regOfIndex k = none := by
  unfold regOfIndex
  split
  case h_9 =>
    clear * - h
    simp (disch := omega) only [dif_neg]
  all_goals omega

/-- An offset in one of the two reserved ranges (20_memory.md R72). -/
theorem regAt_reserved {off : BitVec 9}
    (h : (0x090 ≤ off.toNat ∧ off.toNat ≤ 0x0FC) ∨ (0x1F0 ≤ off.toNat ∧ off.toNat ≤ 0x1FC)) : regAt off = none :=
  regOfIndex_reserved (by omega)

theorem busRead_eq_zero {off : BitVec 9} (h : regAt off = none) (s : State) : busRead off s = 0 := by
  simp [busRead, h]

theorem busWrite_eq_self {off : BitVec 9} (h : regAt off = none) (v : Word) (s : State) : busWrite off v s = s := by
  simp [busWrite, h]

/-! ## Accesses of an idle core -/

/-- What a read returns does not depend on the host's turns to come. -/
theorem busRead_inputs (off : BitVec 9) (s : State) (rest : List HostAction) :
    busRead off { s with inputs := rest } = busRead off s := by
  unfold busRead
  split
  · next r _ => cases r <;> rfl
  · rfl

theorem hostTurn_cons {s : State} {a : HostAction} {rest : List HostAction} (hi : s.inputs = a :: rest) :
    hostTurn s = hostAct a { s with inputs := rest } := by
  simp [hostTurn, hi]

theorem aligned_word {off : BitVec 9} (ha : off.extractLsb' 0 2 = 0) : aligned .word off = true := by
  simp [aligned, ha]

theorem hostRead_idle {s : State} {off : BitVec 9} (hr : s.rstN = true) (hp : s.pending = none)
    (ha : off.extractLsb' 0 2 = 0) : hostRead .word off s = .next (record (busRead off s) s) := by
  simp [hostRead, hr, aligned_word ha, busy_eq_false.2 hp]

theorem hostWrite_idle {s : State} {off : BitVec 9} (hr : s.rstN = true) (hp : s.pending = none)
    (ha : off.extractLsb' 0 2 = 0) (v : Word) : hostWrite .word off v s = .next (busWrite off v s) := by
  simp [hostWrite, hr, aligned_word ha, busy_eq_false.2 hp]

section
variable {s : State} {off : BitVec 9} {rest : List HostAction} (hr : s.rstN = true) (hp : s.pending = none)
  (ha : off.extractLsb' 0 2 = 0)
include hr hp ha

theorem step_read_idle (hi : s.inputs = .read .word off :: rest) :
    step s = .next (record (busRead off s) { s with inputs := rest }) := by
  rw [step_idle hp, hostTurn_cons hi, ← busRead_inputs off s rest]
  exact hostRead_idle (s := { s with inputs := rest }) hr hp ha

theorem step_write_idle {v : Word} (hi : s.inputs = .write .word off v :: rest) :
    step s = .next (busWrite off v { s with inputs := rest }) := by
  rw [step_idle hp, hostTurn_cons hi]
  exact hostWrite_idle (s := { s with inputs := rest }) hr hp ha v

end

/-! ## Writes -/

@[simp] theorem quadSet_quadSet (q : Quad) (j : Fin 4) (v w : Word) :
    quadSet (quadSet q j v) j w = quadSet q j w := by
  fin_cases j <;> rfl

theorem writeReg_writeReg {r : Reg} (hr : r ≠ .cmd) (v : Word) (s : State) :
    writeReg r v (writeReg r v s) = writeReg r v s := by
  cases r with
  | cmd => exact absurd rfl hr
  | ctrl | status | keyLen | msgLen | blocksLeft | gfOpnd | gfRes | dout | cv | rk => rfl
  | key | iv | din | state => simp [writeReg]

theorem busWrite_busWrite {off : BitVec 9} (h : regAt off ≠ some .cmd) (v : Word) (s : State) :
    busWrite off v (busWrite off v s) = busWrite off v s := by
  cases hreg : regAt off with
  | none => simp only [busWrite_eq_self hreg]
  | some r =>
    have hr : r ≠ .cmd := fun hc => h (hc ▸ hreg)
    simpa [busWrite, hreg] using writeReg_writeReg hr v s

/-- Away from CMD a write reaches the read-write registers alone (20_memory.md R79). -/
theorem busWrite_eq_update {off : BitVec 9} (h : regAt off ≠ some .cmd) (v : Word) (s : State) :
    busWrite off v s =
      { s with
        ctrl := (busWrite off v s).ctrl, keyLen := (busWrite off v s).keyLen, msgLen := (busWrite off v s).msgLen,
        gfOpnd := (busWrite off v s).gfOpnd, key := (busWrite off v s).key, iv := (busWrite off v s).iv,
        din := (busWrite off v s).din, state := (busWrite off v s).state } := by
  obtain ⟨hrk, hksValid, hnr, hcv, hdout, hgfRes, hmsgActive, hblocksLeft, hdoutValid, herr, hmsgDir, hmsgMode,
    hwork, hrstN, htrace, hinputs, hreads⟩ := busWrite_frame off v s
  obtain ⟨hpending, hlastOp, hdraws⟩ := busWrite_pending h v s
  exact State.ext rfl rfl rfl hblocksLeft rfl hgfRes rfl rfl rfl hdout rfl hcv hrk hksValid hmsgActive hdoutValid
    herr hnr hmsgDir hmsgMode hlastOp hpending hwork hrstN htrace hinputs hreads hdraws

theorem busWrite_cmd (v : Word) (s : State) : busWrite 0x004 v s = issue v s := busWrite_offset .cmd v s

/-! ## The statements -/

/-- Settles O50: an idle core's step is the host's read or write, a write of a register but CMD is idempotent and
within the frame of bus writes, and a write of CMD is an issue. -/
theorem accessesHaveOnlyTheirSideEffects : Obligations.AccessesHaveOnlyTheirSideEffects := by
  refine ⟨fun s off rest hr hp ha hi => step_read_idle hr hp ha hi,
    fun s off v rest hr hp ha hi => step_write_idle hr hp ha hi, fun s off v ha hne => ?_, fun s v => ?_⟩
  · have hcmd : regAt off ≠ some .cmd := regAt_ne_cmd ha hne
    exact ⟨busWrite_busWrite hcmd v s, busWrite_eq_update hcmd v s⟩
  · rw [busWrite_cmd, issue_pending]
    exact ⟨_, rfl⟩

/-- Settles O49: no register lies at a reserved offset, so the step's read is 0 and its write is nothing. -/
theorem reservedOffsetsReadZero : Obligations.ReservedOffsetsReadZero := by
  intro s off v rest hr hp ha hrange
  have hnone : regAt off = none := regAt_reserved hrange
  refine ⟨fun hi => ?_, fun hi => ?_⟩
  · rw [step_read_idle hr hp ha hi, busRead_eq_zero hnone, record]
  · rw [step_write_idle hr hp ha hi, busWrite_eq_self hnone]

end Sys2Proof.Machine

/-! # Byte order of the register groups (20_memory.md R74)

A word's bytes are read by `byteK`, and a word is written as the number its column's bytes spell; every group of
registers reduces to these two facts about one word. -/

namespace Sys2Proof.Machine

/-! ## Columns as words -/

/-- Concatenation puts the left operand above the right one. -/
theorem toNat_append_eq_add {m n : Nat} (x : BitVec m) (y : BitVec n) :
    (x ++ y).toNat = x.toNat * 2 ^ n + y.toNat := by
  rw [BitVec.toNat_append, ← Nat.shiftLeft_add_eq_or_of_lt y.isLt, Nat.shiftLeft_eq]

/-- A column is written as the number its bytes spell, the first most significant (00_scope.md R13). -/
theorem toNat_colWord (t : Col) :
    (colWord t).toNat = t.b0.toNat * 2 ^ 24 + t.b1.toNat * 2 ^ 16 + t.b2.toNat * 2 ^ 8 + t.b3.toNat := by
  simp only [colWord, toNat_append_eq_add]
  omega

theorem quadGet_quadOf (b : Block) (c : Fin 4) : quadGet (quadOf b) c = colWord (blockCol b c) := by
  fin_cases c <;> rfl

/-! ## Key bytes and round keys -/

theorem keyByte_eq_byteK (key : Vector Word 8) (j : Fin 8) (k : Fin 4) :
    keyByte key (4 * j.val + k.val) = byteK k key[j] := by
  have hword : (4 * j.val + k.val) / 4 = j.val := by omega
  have hbyte : (4 * j.val + k.val) % 4 = k.val := by omega
  simp [keyByte, hword, hbyte]

theorem rkWord_of_lt (rk : Vector Word 60) {i : Nat} (hi : i < 60) : rkWord rk i = rk[i] := by
  simp [rkWord, hi]

/-- Column `c` of round key `r` is word `4r + c` of the store (10_state.md R42). -/
theorem blockCol_roundKey (rk : Vector Word 60) (r : Nat) (c : Fin 4) :
    blockCol (roundKey rk r) c = colOf (rkWord rk (4 * r + c.val)) := by
  fin_cases c <;> rfl

/-! ## The statement -/

/-- Settles O53: reads of a group, of the key and of a round key are byte reads of their words, and a block's word is
its column's. -/
theorem blocksPackByColumns : Obligations.BlocksPackByColumns := by
  refine ⟨blockAt_blkOf, fun b c => ?_, keyByte_eq_byteK, fun rk r k c => ?_⟩
  · rw [quadGet_quadOf]
    exact toNat_colWord (blockCol b c)
  · rw [blockAt, blockCol_roundKey, colAt_colOf, rkWord_of_lt rk (by omega), byteK]

end Sys2Proof.Machine

/-! # The command word (30_encoding.md R103..R107)

A word is its three fields, and it decodes to a command exactly when it is that command's encoding
(`decode_eq_ok_iff`). Which words are legal, which rows they match and which opcodes are reserved follow from this
one fact; issue and completion are a step of the host and a step of the engine. -/

namespace Sys2Proof

/-! ## Fields -/

theorem word_eq_iff_fields {v w : Word} :
    v = w ↔ rsvdField v = rsvdField w ∧ rndField v = rndField w ∧ opField v = opField w := by
  refine ⟨fun h => by simp [h], fun ⟨hrsvd, hrnd, hop⟩ => ?_⟩
  rw [word_of_fields v, hrsvd, hrnd, hop, ← word_of_fields w]

/-- A command has an encoding exactly when RND can hold its operand (30_encoding.md R101). -/
theorem Instr.wf_iff_rnd_lt {i : Instr} : i.wf = true ↔ i.rnd < 16 := by
  cases i <;> simp [Instr.wf, Instr.rnd]

/-- Only ADD_ROUND_KEY has an operand (30_encoding.md R100). -/
theorem Instr.rnd_eq_zero {i : Instr} (h : ∀ n, i ≠ .addRoundKey n) : i.rnd = 0 := by
  cases i with
  | addRoundKey n => exact absurd rfl (h n)
  | _ => rfl

/-! ## Decoding -/

theorem ofOpcode_opcode (i : Instr) : ofOpcode i.opcode.toNat i.rnd = some i := by
  cases i <;> rfl

/-- A command is its opcode and its operand. -/
theorem Instr.eq_of_opcode_eq {i j : Instr} (hop : i.opcode = j.opcode) (hrnd : i.rnd = j.rnd) : i = j := by
  have h : some i = some j := by rw [← ofOpcode_opcode i, hop, hrnd, ofOpcode_opcode j]
  exact Option.some.inj h

/-- The opcode map lists the opcodes of the commands and no other (30_encoding.md R103). -/
theorem ofOpcode_zero_eq_some_iff {op : Byte} {i : Instr} :
    ofOpcode op.toNat 0 = some i ↔ i.rnd = 0 ∧ op = i.opcode := by
  constructor
  · intro h
    unfold ofOpcode at h
    split at h <;> cases h
    all_goals exact ⟨rfl, BitVec.eq_of_toNat_eq (by assumption)⟩
  · rintro ⟨hrnd, rfl⟩
    rw [← hrnd, ofOpcode_opcode]

/-- The decoder by fields: RSVD is 0, RND is the command's operand and OP its opcode (30_encoding.md R106). -/
theorem decode_eq_ok_iff_fields {w : Word} {i : Instr} :
    decode w = .ok i ↔ rsvdField w = 0 ∧ (rndField w).toNat = i.rnd ∧ opField w = i.opcode := by
  unfold decode
  split_ifs with hrsvd hop hrnd
  · exact iff_of_false nofun fun ⟨hzero, _⟩ => hrsvd hzero
  · rw [not_not] at hrsvd
    constructor
    · rintro ⟨⟩
      exact ⟨hrsvd, rfl, hop⟩
    · rintro ⟨-, hr, ho⟩
      exact congrArg Except.ok (Instr.eq_of_opcode_eq (hop.symm.trans ho) hr)
  · refine iff_of_false nofun ?_
    rintro ⟨-, hr, ho⟩
    have hne : ∀ n, i ≠ .addRoundKey n := by
      rintro n rfl
      exact hop ho
    rw [Instr.rnd_eq_zero hne] at hr
    exact hrnd (BitVec.eq_of_toNat_eq hr)
  · rw [not_not] at hrsvd hrnd
    have hzero : (rndField w).toNat = i.rnd ↔ i.rnd = 0 := by rw [hrnd]; exact eq_comm
    rw [and_iff_right hrsvd, hzero, ← ofOpcode_zero_eq_some_iff]
    cases ofOpcode (opField w).toNat 0 <;> simp

/-- A word decodes to a command exactly when it is the command's encoding. -/
theorem decode_eq_ok_iff {w : Word} {i : Instr} : decode w = .ok i ↔ i.wf = true ∧ w = encode i := by
  have hrnd : (rndField w).toNat = i.rnd ↔ i.rnd < 16 ∧ rndField w = BitVec.ofNat 4 i.rnd := by
    rw [← BitVec.toNat_inj, BitVec.toNat_ofNat]
    omega
  rw [decode_eq_ok_iff_fields, Instr.wf_iff_rnd_lt, word_eq_iff_fields, rsvdField_encode, rndField_encode,
    opField_encode, hrnd]
  tauto

/-! ## The rows of the opcode map -/

/-- The command's word is its opcode alone, every other bit 0 (30_encoding.md R104). -/
theorem encode_eq_setWidth {i : Instr} (h : ∀ n, i ≠ .addRoundKey n) : encode i = i.opcode.setWidth 32 := by
  cases i with
  | addRoundKey n => exact absurd rfl (h n)
  | _ => rfl

theorem decode_eq_ok_iff_fixed {w : Word} {i : Instr} (h : ∀ n, i ≠ .addRoundKey n) :
    decode w = .ok i ↔ w = i.opcode.setWidth 32 := by
  have hwf : i.wf = true := by rw [Instr.wf_iff_rnd_lt, Instr.rnd_eq_zero h]; decide
  rw [decode_eq_ok_iff, encode_eq_setWidth h, and_iff_right hwf]

/-- ADD_ROUND_KEY's mask keeps RSVD and OP and clears RND (30_encoding.md R104). -/
theorem and_roundMask_eq_iff {w : Word} :
    w &&& 0xFFFFF0FF = 0x0000000A ↔ rsvdField w = 0 ∧ opField w = 0x0A := by
  have hrsvd : rsvdField (w &&& 0xFFFFF0FF) = rsvdField w := by
    rw [rsvdField, BitVec.extractLsb'_and]
    exact BitVec.and_allOnes
  have hrnd : rndField (w &&& 0xFFFFF0FF) = 0 := by
    rw [rndField, BitVec.extractLsb'_and]
    exact BitVec.and_zero
  have hop : opField (w &&& 0xFFFFF0FF) = opField w := by
    rw [opField, BitVec.extractLsb'_and]
    exact BitVec.and_allOnes
  rw [word_eq_iff_fields, hrsvd, hrnd, hop]
  exact ⟨fun ⟨hr, _, ho⟩ => ⟨hr, ho⟩, fun ⟨hr, ho⟩ => ⟨hr, rfl, ho⟩⟩

/-- RND is bits 11:8 as a number (30_encoding.md R100, R101). -/
theorem toNat_rndField (w : Word) : (rndField w).toNat = ((w >>> 8) &&& 0xF).toNat := by
  have hmask : (0xF : Word).toNat = 2 ^ 4 - 1 := rfl
  rw [rndField, BitVec.extractLsb'_toNat, BitVec.toNat_and, BitVec.toNat_ushiftRight, hmask,
    Nat.and_two_pow_sub_one_eq_mod]

theorem decode_eq_ok_addRoundKey_iff {w : Word} {n : Nat} :
    decode w = .ok (.addRoundKey n) ↔ w &&& 0xFFFFF0FF = 0x0000000A ∧ n = ((w >>> 8) &&& 0xF).toNat := by
  rw [decode_eq_ok_iff_fields, and_roundMask_eq_iff, ← toNat_rndField]
  exact ⟨fun ⟨hrsvd, hn, hop⟩ => ⟨⟨hrsvd, hop⟩, hn.symm⟩, fun ⟨⟨hrsvd, hop⟩, hn⟩ => ⟨hrsvd, hn.symm, hop⟩⟩

/-- The row of the opcode map a command stands in (30_encoding.md R104). -/
def Instr.opRow : Instr → OpRow
  | .addRoundKey _ => { mask := 0xFFFFF0FF, pattern := 0x0000000A }
  | i => .fixed (i.opcode.setWidth 32)

theorem mem_opRows_iff {r : OpRow} : r ∈ opRows ↔ ∃ i : Instr, i.opRow = r := by
  constructor
  · intro h
    have hmap : opRows = [Instr.nop, .expandKey, .encState, .decState, .subBytes, .invSubBytes, .shiftRows,
      .invShiftRows, .mixColumns, .invMixColumns, .addRoundKey 0, .gfMul, .msgStart, .msgBlock].map Instr.opRow := rfl
    obtain ⟨i, -, hi⟩ := List.mem_map.1 (hmap ▸ h)
    exact ⟨i, hi⟩
  · rintro ⟨i, rfl⟩
    cases i <;> simp [opRows, Instr.opRow, Instr.opcode]

theorem Instr.opRow_of_ne {i : Instr} (h : ∀ n, i ≠ .addRoundKey n) : i.opRow = .fixed (i.opcode.setWidth 32) := by
  cases i with
  | addRoundKey n => exact absurd rfl (h n)
  | _ => rfl

theorem OpRow.accepts_fixed {op w : Word} : (OpRow.fixed op).accepts w = true ↔ w = op := by
  have hmask : w &&& (0xFFFFFFFF : Word) = w := BitVec.and_allOnes
  rw [OpRow.accepts, OpRow.fixed, hmask, decide_eq_true_iff]

/-- The pattern of a row is the opcode of its commands. -/
theorem Instr.opcode_eq_of_opRow_eq {i j : Instr} (h : i.opRow = j.opRow) : i.opcode = j.opcode := by
  have hopcode (k : Instr) : k.opRow.pattern.setWidth 8 = k.opcode := by cases k <;> rfl
  rw [← hopcode i, h, hopcode j]

/-- ADD_ROUND_KEY's row is its own: its mask has RND clear. -/
theorem Instr.opRow_ne_addRoundKey {i : Instr} (h : ∀ n, i ≠ .addRoundKey n) (n : Nat) :
    (Instr.addRoundKey n).opRow ≠ i.opRow := by
  intro hrow
  rw [Instr.opRow_of_ne h] at hrow
  have hmask : (0xFFFFF0FF : Word) = 0xFFFFFFFF := congrArg OpRow.mask hrow
  exact absurd hmask (by decide)

/-- A row matches exactly the words of its commands (30_encoding.md R104). -/
theorem accepts_opRow_iff {i : Instr} {w : Word} :
    i.opRow.accepts w = true ↔ ∃ j, decode w = .ok j ∧ j.opRow = i.opRow := by
  by_cases h : ∀ n, i ≠ .addRoundKey n
  · rw [Instr.opRow_of_ne h, OpRow.accepts_fixed, ← decode_eq_ok_iff_fixed h, ← Instr.opRow_of_ne h]
    refine ⟨fun hw => ⟨i, hw, rfl⟩, fun ⟨j, hw, hrow⟩ => ?_⟩
    have hj : ∀ n, j ≠ .addRoundKey n := by
      rintro n rfl
      exact Instr.opRow_ne_addRoundKey h n hrow
    have hji : j = i :=
      Instr.eq_of_opcode_eq (Instr.opcode_eq_of_opRow_eq hrow)
        ((Instr.rnd_eq_zero hj).trans (Instr.rnd_eq_zero h).symm)
    rwa [← hji]
  · push Not at h
    obtain ⟨n, rfl⟩ := h
    have haccepts : (Instr.addRoundKey n).opRow.accepts w = true ↔ w &&& 0xFFFFF0FF = 0x0000000A :=
      decide_eq_true_iff
    rw [haccepts]
    refine ⟨fun hw => ⟨_, decode_eq_ok_addRoundKey_iff.2 ⟨hw, rfl⟩, rfl⟩, fun ⟨j, hw, hrow⟩ => ?_⟩
    obtain ⟨hrsvd, -, hop⟩ := decode_eq_ok_iff_fields.1 hw
    exact and_roundMask_eq_iff.2 ⟨hrsvd, hop.trans (Instr.opcode_eq_of_opRow_eq hrow)⟩

/-- A word is legal exactly when a row of the opcode map matches it (30_encoding.md R104). -/
theorem legal_iff_accepts {w : Word} : (∃ i, decode w = .ok i) ↔ ∃ r ∈ opRows, r.accepts w = true := by
  constructor
  · rintro ⟨i, hw⟩
    exact ⟨i.opRow, mem_opRows_iff.2 ⟨i, rfl⟩, accepts_opRow_iff.2 ⟨i, hw, rfl⟩⟩
  · rintro ⟨r, hr, hacc⟩
    obtain ⟨i, rfl⟩ := mem_opRows_iff.1 hr
    obtain ⟨j, hw, -⟩ := accepts_opRow_iff.1 hacc
    exact ⟨j, hw⟩

/-- No two rows match one word, since it decodes to one command (30_encoding.md R104). -/
theorem opRow_unique {w : Word} {r r' : OpRow} (hr : r ∈ opRows) (hr' : r' ∈ opRows) (hacc : r.accepts w = true)
    (hacc' : r'.accepts w = true) : r = r' := by
  obtain ⟨i, rfl⟩ := mem_opRows_iff.1 hr
  obtain ⟨i', rfl⟩ := mem_opRows_iff.1 hr'
  obtain ⟨j, hw, hrow⟩ := accepts_opRow_iff.1 hacc
  obtain ⟨j', hw', hrow'⟩ := accepts_opRow_iff.1 hacc'
  obtain rfl : j = j' := Except.ok.inj (hw.symm.trans hw')
  exact hrow.symm.trans hrow'

/-! ## Reserved opcodes -/

/-- The opcodes in use are 0x00..0x0B, 0x10 and 0x11 (30_encoding.md R103, R105). -/
theorem Instr.opcode_not_reserved (i : Instr) :
    i.opcode.toNat ≤ 0x0B ∨ (0x10 ≤ i.opcode.toNat ∧ i.opcode.toNat ≤ 0x11) := by
  cases i <;> simp [Instr.opcode]

/-- A word with a reserved opcode is illegal (30_encoding.md R105). -/
theorem decode_reserved {w : Word}
    (h : (0x0C ≤ (opField w).toNat ∧ (opField w).toNat ≤ 0x0F) ∨ 0x12 ≤ (opField w).toNat) :
    ∃ e, decode w = .error e := by
  cases hd : decode w with
  | error e => exact ⟨e, rfl⟩
  | ok i =>
    obtain ⟨-, -, hop⟩ := decode_eq_ok_iff_fields.1 hd
    have hused := i.opcode_not_reserved
    rw [← hop] at hused
    omega

/-! ## The statement on the opcode map -/

/-- Settles O3: decoding is by encodings and by ADD_ROUND_KEY's mask, and a row matches the words of its commands. -/
theorem legalWordsAreTheOpcodeRows : Obligations.LegalWordsAreTheOpcodeRows :=
  ⟨fun _ h _ => decode_eq_ok_iff_fixed h, fun _ _ => decode_eq_ok_addRoundKey_iff, fun _ => legal_iff_accepts,
    fun _ _ hr _ hr' => opRow_unique hr hr', rfl⟩

end Sys2Proof

namespace Sys2Proof.Machine

/-! ## Issue and completion -/

/-- A CMD write of an idle core is the issue of its word, legal or not (30_encoding.md R100, R107). -/
theorem step_issue {s : State} {v : Word} {rest : List HostAction} (hr : s.rstN = true) (hp : s.pending = none)
    (hi : s.inputs = .write .word 0x004 v :: rest) : step s = .next (issue v { s with inputs := rest }) := by
  rw [step_write_idle hr hp (by decide) hi, busWrite_cmd]

/-- The step of a due command is a next state in the frame of completions, whatever its word (30_encoding.md R107). -/
theorem step_due_next {s : State} {v : Word} (h : s.pending = some ⟨v, 0⟩) :
    ∃ t, step s = .next t ∧ CompletionFrame s t := by
  rw [step_due h]
  exact complete_next v s

/-- The step of a due illegal word fails with ILLEGAL_COMMAND (45_control.md R251). -/
theorem step_due_illegal {s : State} {v : Word} {e : DecodeError} (h : s.pending = some ⟨v, 0⟩)
    (hd : decode v = .error e) : step s = .next (raiseError .illegalCommand s) := by
  rw [step_due h, complete_error hd]

/-- A round index above NR fails, without a schedule with NO_KEY_SCHEDULE (3) and with one with BAD_ROUND (5)
(60_exceptions.md R264). -/
theorem exec_addRoundKey_badRound {s : State} {n : Nat} (h : s.nr.toNat < n) :
    ∃ t, exec (.addRoundKey n) s = .next t ∧ (t.err = 3 ∨ t.err = 5) := by
  simp only [exec, execAddRoundKey]
  split
  · exact ⟨_, rfl, .inl rfl⟩
  · rw [if_pos (show rounds s < n from h)]
    exact ⟨_, rfl, .inr rfl⟩

/-! ## The statements on issue and completion -/

/-- Settles O5: a CMD write is an issue, and every completion keeps the frame of completions. -/
theorem issueSetsBusyAndCompletionClearsIt : Obligations.IssueSetsBusyAndCompletionClearsIt := by
  refine ⟨fun s v rest hr hp hi => ⟨_, _, step_issue hr hp hi⟩, fun s v hp => ?_⟩
  obtain ⟨t, ht, hframe⟩ := step_due_next hp
  exact ⟨t, ht, busy_eq_false.2 hframe.pending, hframe.lastOp⟩

/-- Settles O7: no command has a reserved opcode, an illegal word's completion is an error and no more, and the four
examples are evaluated. -/
theorem illegalWordsCompleteWithErrorFour : Obligations.IllegalWordsCompleteWithErrorFour :=
  ⟨fun _ h => decode_reserved h, fun _ _ _ hp hd => step_due_illegal hp hd,
    fun _ _ _ hr hp hi => ⟨_, step_issue hr hp hi, rfl⟩,
    ⟨.reservedOpcode, rfl⟩, ⟨.reservedRnd, rfl⟩, ⟨.reservedBits, rfl⟩, rfl, fun _ h => exec_addRoundKey_badRound h⟩

end Sys2Proof.Machine

/-! # The product of GF(2^8) and GF_MUL (40_gf_arith.md R132, R133, R140)

The product is additive in each operand, so an identity between products needs proof at the single bits alone
(`xor_induction`); commutativity and the identity follow, and with them what GF_MUL leaves in GF_RES. -/

namespace Sys2Proof

/-! ## Words as sums of single bits -/

/-- What holds of 0 and of each single bit, and of `x ^^^ y` where it holds of both, holds of every word. -/
theorem xor_induction {w : Nat} {P : BitVec w → Prop} (hzero : P 0) (hbit : ∀ i < w, P (BitVec.twoPow w i))
    (hxor : ∀ x y, P x → P y → P (x ^^^ y)) (x : BitVec w) : P x := by
  have hlow : ∀ n ≤ w, P ((x.setWidth n).setWidth w) := by
    intro n
    induction n with
    | zero =>
      intro _
      have hnone : (x.setWidth 0).setWidth w = 0 := by ext; simp
      rwa [hnone]
    | succ n ih =>
      intro hn
      have hx := ih (by omega)
      cases htop : x.getLsbD n with
      | false => rwa [BitVec.setWidth_setWidth_succ_eq_setWidth_setWidth_of_getLsbD_false htop]
      | true =>
        have hsum : (x.setWidth (n + 1)).setWidth w = (x.setWidth n).setWidth w ^^^ BitVec.twoPow w n := by
          ext j hj
          simp only [BitVec.getElem_setWidth, BitVec.getLsbD_setWidth, BitVec.getElem_xor, BitVec.getElem_twoPow]
          grind
        rw [hsum]
        exact hxor _ _ hx (hbit n (by omega))
  simpa using hlow w le_rfl

/-! ## A fixed command's opcode -/

/-- Of a command without an operand the opcode alone is enough to tell it. -/
theorem Instr.eq_of_opcode_eq_fixed {i j : Instr} (h : ∀ n, i ≠ .addRoundKey n) (hop : j.opcode = i.opcode) :
    j = i := by
  have hj : ∀ n, j ≠ .addRoundKey n := by
    rintro n rfl
    cases i with
    | addRoundKey m => exact h m rfl
    | _ => exact absurd hop (by simp [Instr.opcode])
  exact Instr.eq_of_opcode_eq hop ((Instr.rnd_eq_zero hj).trans (Instr.rnd_eq_zero h).symm)

/-- A word with the opcode of a command without an operand is illegal unless it is that command's word
(30_encoding.md R106). -/
theorem decode_fixed_opcode_error {i : Instr} {w : Word} (h : ∀ n, i ≠ .addRoundKey n) (hop : opField w = i.opcode)
    (hw : w ≠ i.opcode.setWidth 32) : ∃ e, decode w = .error e := by
  cases hd : decode w with
  | error e => exact ⟨e, rfl⟩
  | ok j =>
    obtain ⟨-, -, hopj⟩ := decode_eq_ok_iff_fields.1 hd
    obtain rfl : j = i := Instr.eq_of_opcode_eq_fixed h (hopj.symm.trans hop)
    exact absurd ((decode_eq_ok_iff_fixed h).1 hd) hw

end Sys2Proof

namespace Sys2Proof.Machine

/-! ## Laws of the product -/

/-- The loop is additive in the multiplicand and the sum so far. -/
theorem gmulLoop_xor_left (b : Byte) (n i : Nat) (t t' p p' : Byte) :
    gmulLoop b n i (t ^^^ t') (p ^^^ p') = gmulLoop b n i t p ^^^ gmulLoop b n i t' p' := by
  induction n generalizing i t t' p p' with
  | zero => rfl
  | succ n ih =>
    rw [gmulLoop, gmulLoop, gmulLoop, xtime_xor, ← ih]
    congr 1
    split
    · ac_rfl
    · rfl

/-- The loop is additive in the multiplier and the sum so far. -/
theorem gmulLoop_xor_right (b b' : Byte) (n i : Nat) (t p p' : Byte) :
    gmulLoop (b ^^^ b') n i t (p ^^^ p') = gmulLoop b n i t p ^^^ gmulLoop b' n i t p' := by
  induction n generalizing i t p p' with
  | zero => rfl
  | succ n ih =>
    rw [gmulLoop, gmulLoop, gmulLoop, ← ih, BitVec.getLsbD_xor]
    congr 1
    cases b.getLsbD i <;> cases b'.getLsbD i
    · rfl
    · exact BitVec.xor_assoc p p' t
    · change p ^^^ p' ^^^ t = p ^^^ t ^^^ p'
      ac_rfl
    · have hcancel : p ^^^ t ^^^ (p' ^^^ t) = p ^^^ p' ^^^ (t ^^^ t) := by ac_rfl
      simp [hcancel]

theorem gmul_xor_left (a a' b : Byte) : gmul (a ^^^ a') b = gmul a b ^^^ gmul a' b :=
  gmulLoop_xor_left b 8 0 a a' 0 0

theorem gmul_xor_right (a b b' : Byte) : gmul a (b ^^^ b') = gmul a b ^^^ gmul a b' :=
  gmulLoop_xor_right b b' 8 0 a 0 0

theorem gmul_zero_left (b : Byte) : gmul 0 b = 0 := by
  simpa using gmul_xor_left 0 0 b

theorem gmul_zero_right (a : Byte) : gmul a 0 = 0 := rfl

theorem gmul_one_right (a : Byte) : gmul a 1 = a := BitVec.zero_xor

theorem gmul_two_right (a : Byte) : gmul a 2 = xtime a := BitVec.zero_xor

theorem gmul_twoPow_comm :
    ∀ i < 8, ∀ j < 8, gmul (.twoPow 8 i) (.twoPow 8 j) = gmul (.twoPow 8 j) (.twoPow 8 i) := by decide

/-- The product is commutative, since it is so at the single bits of both operands (40_gf_arith.md R133). -/
theorem gmul_comm (a b : Byte) : gmul a b = gmul b a := by
  induction a using xor_induction with
  | hzero => rw [gmul_zero_left, gmul_zero_right]
  | hxor x y hx hy => rw [gmul_xor_left, gmul_xor_right, hx, hy]
  | hbit i hi =>
    induction b using xor_induction with
    | hzero => rw [gmul_zero_left, gmul_zero_right]
    | hxor x y hx hy => rw [gmul_xor_left, gmul_xor_right, hx, hy]
    | hbit j hj => exact gmul_twoPow_comm i hi j hj

theorem gmul_one_left (b : Byte) : gmul 1 b = b := (gmul_comm 1 b).trans (gmul_one_right b)

/-! ## GF_MUL -/

/-- GF_MUL writes GF_RES, ERR and BUSY, and nothing else (40_gf_arith.md R140). -/
theorem exec_gfMul (s : State) :
    exec .gfMul s = .next { s with gfRes := gmul (gfA s) (gfB s), err := 0, pending := none } := rfl

theorem gfRes_of_exec_gfMul {s t : State} (h : exec .gfMul s = .next t) : t.gfRes = gmul (gfA s) (gfB s) := by
  cases h
  rfl

/-- GF_OPND keeps A and B apart (10_state.md R28). -/
theorem gfA_of_append {s : State} {a b : Byte} (h : s.gfOpnd = b ++ a) : gfA s = a := by
  rw [gfA, h]
  exact BitVec.extractLsb'_append_eq_right

theorem gfB_of_append {s : State} {a b : Byte} (h : s.gfOpnd = b ++ a) : gfB s = b := by
  rw [gfB, h]
  exact BitVec.extractLsb'_append_eq_left

theorem gfRes_of_gfOpnd {s t : State} {a b : Byte} (hop : s.gfOpnd = b ++ a) (h : exec .gfMul s = .next t) :
    t.gfRes = gmul a b := by
  rw [gfRes_of_exec_gfMul h, gfA_of_append hop, gfB_of_append hop]

/-- R140's corner cases and example. -/
theorem gfMul_corner_cases {s t : State} (h : exec .gfMul s = .next t) :
    (gfA s = 0 ∨ gfB s = 0 → t.gfRes = 0) ∧ (gfA s = 1 → t.gfRes = gfB s) ∧
    (gfB s = 2 → t.gfRes = xtime (gfA s)) ∧ (s.gfOpnd = 0x0280 → t.gfRes = 0x1B) ∧
    (s.gfOpnd = 0xFFFF → t.gfRes = 0x13) ∧ (s.gfOpnd = 0x8357 → t.gfRes = 0xC1) := by
  have hprod := gfRes_of_exec_gfMul h
  refine ⟨?_, fun ha => ?_, fun hb => ?_, fun hop => ?_, fun hop => ?_, fun hop => ?_⟩
  · rintro (ha | hb)
    · rw [hprod, ha, gmul_zero_left]
    · rw [hprod, hb, gmul_zero_right]
  · rw [hprod, ha, gmul_one_left]
  · rw [hprod, hb, gmul_two_right]
  · exact (gfRes_of_gfOpnd (a := 0x80) (b := 0x02) hop h).trans (by decide)
  · exact (gfRes_of_gfOpnd (a := 0xFF) (b := 0xFF) hop h).trans (by decide)
  · exact (gfRes_of_gfOpnd (a := 0x57) (b := 0x83) hop h).trans (by decide)

/-- Swapping the operands gives the same product (40_gf_arith.md R140). -/
theorem gfMul_symmetric {s s' t t' : State} (hop : s'.gfOpnd = gfA s ++ gfB s) (h : exec .gfMul s = .next t)
    (h' : exec .gfMul s' = .next t') : t'.gfRes = t.gfRes := by
  rw [gfRes_of_gfOpnd hop h', gfRes_of_exec_gfMul h, gmul_comm]

/-- Settles O9: the word is GF_MUL's encoding, its completion writes the product, the product is the XOR of the
doublings that B selects, and its corner cases and symmetry are laws of the product. -/
theorem gfMulWritesTheProduct : Obligations.GfMulWritesTheProduct := by
  have hfixed : ∀ n, Instr.gfMul ≠ .addRoundKey n := nofun
  refine ⟨(decode_eq_ok_iff_fixed hfixed).2 rfl, fun w hop hw => decode_fixed_opcode_error hfixed hop hw,
    fun s rest hr hp hi => ⟨_, step_issue hr hp hi, rfl, rfl⟩, fun s => ?_, fun s t h => gfMul_corner_cases h,
    fun s s' t t' hop h h' => gfMul_symmetric hop h h'⟩
  rw [exec_gfMul, gmul_eq_foldl]
  rfl

end Sys2Proof.Machine

/-! # The substitution tables (41_sbox.md R150 to R153)

The forward table followed by the inverse one is read off entry by entry, by row and column; the other order follows
because a one-sided inverse on a finite type is two-sided, as R152 derives it. -/

namespace Sys2Proof.Machine

theorem invSbox_sbox_rowColumn (hi lo : BitVec 4) : invSbox (sbox (hi ++ lo)) = hi ++ lo := by
  revert hi lo
  decide

@[simp] theorem invSbox_sbox (a : Byte) : invSbox (sbox a) = a := by
  have hsplit : a.extractLsb' 4 4 ++ a.extractLsb' 0 4 = a := by
    rw [BitVec.extractLsb'_append_extractLsb'_eq_extractLsb' (by rfl), BitVec.extractLsb'_eq_self]
  rw [← hsplit, invSbox_sbox_rowColumn]

@[simp] theorem sbox_invSbox (a : Byte) : sbox (invSbox a) = a :=
  Function.LeftInverse.rightInverse_of_card_le invSbox_sbox le_rfl a

/-- Settles O11: the tables undo each other in both orders. -/
theorem inverseTableInvertsTheTable : Obligations.InverseTableInvertsTheTable :=
  fun a => ⟨invSbox_sbox a, sbox_invSbox a⟩

end Sys2Proof.Machine

/-! # The key schedule (42_key_schedule.md R160 to R172)

Every word after the key's own is the word `Nk` places back XOR what the previous word contributes (`carriedWord`);
the store holds the schedule's words as they are. What EXPAND_KEY leaves in RK is a function of the key bytes alone,
and these are read from the first `Nk` key words. -/

namespace Sys2Proof.Machine

/-! ## The variants -/

/-- The bounds all variants share: at most eight words of key, and a schedule that holds them all and fits the store
(42_key_schedule.md R160). -/
theorem variant_bounds {len nk nr : Nat} (hv : variant len = some (nk, nr)) :
    len = 4 * nk ∧ 0 < nk ∧ nk ≤ 8 ∧ nk ≤ 4 * (nr + 1) ∧ nr ≤ 14 := by
  rcases variant_cases hv with ⟨rfl, rfl, rfl⟩ | ⟨rfl, rfl, rfl⟩ | ⟨rfl, rfl, rfl⟩ <;> decide

/-! ## The recurrence -/

/-- What the previous word `t` contributes to word `i` (42_key_schedule.md R164). -/
def carriedWord (nk i : Nat) (t : Col) : Col :=
  if i % nk = 0 then ⟨sbox t.b1 ^^^ rcon (i / nk), sbox t.b2, sbox t.b3, sbox t.b0⟩
  else if nk = 8 ∧ i % nk = 4 then subWord t
  else t

/-- The pass for word `i` has run the core transformation `(i - 1) / nk` times before, so its round constant is that
of round `i / nk` (42_key_schedule.md R163, R164). -/
theorem nextWord_word {nk i : Nat} (hk : 0 < nk) (hi : nk ≤ i) (before : List Col) :
    (nextWord nk i ((i - 1) / nk) before).word =
      xorCol (before.getD (nk - 1) ⟨0, 0, 0, 0⟩) (carriedWord nk i (before.getD 0 ⟨0, 0, 0, 0⟩)) := by
  unfold nextWord carriedWord
  split
  · next hcore =>
    have hround : (i - 1) / nk + 1 = i / nk := by simpa [hcore] using fired_step hk hi
    rw [hround]
    rfl
  · split <;> rfl

section
variable {nk nr : Nat} (key : List Byte) (hk : 0 < nk) (hn : nk ≤ 4 * (nr + 1))
include hk hn

theorem keyExpansion_length : (keyExpansion key nk nr).1.length = 4 * (nr + 1) := by
  obtain ⟨hlen, -⟩ := keyExpansion_spec key hk hn
  exact hlen

/-- The first `nk` words are the key's bytes. -/
theorem keyExpansion_keyWord {i : Nat} (hi : i < nk) :
    (keyExpansion key nk nr).1.getD i ⟨0, 0, 0, 0⟩ =
      ⟨key.getD (4 * i) 0, key.getD (4 * i + 1) 0, key.getD (4 * i + 2) 0, key.getD (4 * i + 3) 0⟩ := by
  obtain ⟨-, hfirst, -⟩ := keyExpansion_spec key hk hn
  rw [List.getD_eq_getElem?_getD, ← List.getElem?_take_of_lt hi, hfirst]
  simp [keyWords, hi]

/-- The recurrence of every later word, read from the finished schedule. -/
theorem keyExpansion_recurrence {i : Nat} (hi : nk ≤ i) (hi' : i < 4 * (nr + 1)) :
    (keyExpansion key nk nr).1.getD i ⟨0, 0, 0, 0⟩ =
      xorCol ((keyExpansion key nk nr).1.getD (i - nk) ⟨0, 0, 0, 0⟩)
        (carriedWord nk i ((keyExpansion key nk nr).1.getD (i - 1) ⟨0, 0, 0, 0⟩)) := by
  obtain ⟨hlen, -, hlater, -⟩ := keyExpansion_spec key hk hn
  have hle : i ≤ (keyExpansion key nk nr).1.length := by omega
  rw [List.getD_eq_getElem?_getD, hlater i hi hi', Option.getD_some, nextWord_word hk hi,
    getD_take_reverse _ _ _ _ hle (by omega), getD_take_reverse _ _ _ _ hle (by omega)]
  congr 2
  omega

end

/-! ## The store -/

/-- The store holds the schedule's words, and 0 past them (42_key_schedule.md R171). -/
theorem scheduleStore_getElem (w : List Col) (nr : Nat) (i : Fin 60) :
    (scheduleStore w nr)[i] = if i.val < 4 * (nr + 1) then colWord (w.getD i.val ⟨0, 0, 0, 0⟩) else 0 := by
  simp [scheduleStore]

theorem colOf_rkWord_scheduleStore (w : List Col) {nr i : Nat} (hi : i < 4 * (nr + 1)) (hnr : nr ≤ 14) :
    colOf (rkWord (scheduleStore w nr) i) = w.getD i ⟨0, 0, 0, 0⟩ := by
  have hword : (scheduleStore w nr)[i] = colWord (w.getD i ⟨0, 0, 0, 0⟩) :=
    (scheduleStore_getElem w nr ⟨i, by omega⟩).trans (if_pos hi)
  rw [rkWord_of_lt _ (by omega), hword, colOf_colWord]

/-- Round key `r` of a stored schedule is its words `4r` to `4r + 3` (42_key_schedule.md R164). -/
theorem roundKey_scheduleStore (w : List Col) {nr r : Nat} (hr : r ≤ nr) (hnr : nr ≤ 14) :
    roundKey (scheduleStore w nr) r =
      ⟨w.getD (4 * r) ⟨0, 0, 0, 0⟩, w.getD (4 * r + 1) ⟨0, 0, 0, 0⟩, w.getD (4 * r + 2) ⟨0, 0, 0, 0⟩,
        w.getD (4 * r + 3) ⟨0, 0, 0, 0⟩⟩ := by
  unfold roundKey
  congr 1 <;> exact colOf_rkWord_scheduleStore w (by omega) hnr

/-! ## EXPAND_KEY -/

/-- EXPAND_KEY with an accepted key length (42_key_schedule.md R170, R172). -/
theorem exec_expandKey {s : State} {nk nr : Nat} (hv : variant s.keyLen.toNat = some (nk, nr)) :
    exec .expandKey s = .next (succeed (endMessage (expandAndStore nk nr s))) := by
  simp only [exec, execExpandKey, hv]

/-- The round keys and the rounds a successful EXPAND_KEY leaves, from the key bytes alone. -/
theorem schedule_of_exec_expandKey {s t : State} {nk nr : Nat} (hv : variant s.keyLen.toNat = some (nk, nr))
    (h : exec .expandKey s = .next t) :
    t.rk = scheduleStore (keyExpansion (keyBytes s.key s.keyLen.toNat) nk nr).1 nr ∧ t.nr = BitVec.ofNat 4 nr := by
  rw [exec_expandKey hv] at h
  cases h
  exact ⟨rfl, rfl⟩

/-- The first `4n` key bytes are those of the first `n` key words (10_state.md R40). -/
theorem keyBytes_congr {key key' : Vector Word 8} {n : Nat} (hn : n ≤ 8)
    (h : ∀ j : Fin 8, j.val < n → key'[j] = key[j]) : keyBytes key' (4 * n) = keyBytes key (4 * n) := by
  refine List.map_congr_left fun b hb => ?_
  have hb : b < 4 * n := List.mem_range.1 hb
  have hlt : b / 4 < 8 := by omega
  have hword : key'[b / 4] = key[b / 4] := h ⟨b / 4, hlt⟩ (Nat.div_lt_of_lt_mul hb)
  simp only [keyByte, Vector.getElem?_eq_getElem hlt, hword]

/-! ## The statements -/

/-- Settles O13: the schedule's length, its first words and its recurrence are what KeyExpansion's loop gives, and a
round key is four words of the store. -/
theorem keyExpansionFollowsTheRecurrence : Obligations.KeyExpansionFollowsTheRecurrence := by
  intro key nk nr hv
  obtain ⟨-, hk, -, hn, hnr⟩ := variant_bounds hv
  exact ⟨keyExpansion_length key hk hn, fun _ hi => keyExpansion_keyWord key hk hn hi,
    fun _ hi hi' => keyExpansion_recurrence key hk hn hi hi', fun _ hr => roundKey_scheduleStore _ hr hnr⟩

/-- Settles O14: the store is `scheduleStore`'s, and the command writes no field but those named. -/
theorem expandKeyStoresTheSchedule : Obligations.ExpandKeyStoresTheSchedule := by
  intro s nk nr hv out
  refine ⟨scheduleStore out.1 nr, fun i hi => ?_, fun i hi => ?_, exec_expandKey hv⟩
  · rw [scheduleStore_getElem, if_pos hi]
  · rw [scheduleStore_getElem, if_neg (Nat.not_lt.2 hi)]

/-- Settles O15: the two expansions run on the same key bytes. -/
theorem scheduleDependsOnTheKeyAlone : Obligations.ScheduleDependsOnTheKeyAlone := by
  intro s s' t t' nk nr hv hlen hkey h h'
  obtain ⟨hbytes, -, hnk, -⟩ := variant_bounds hv
  have hsame : keyBytes s'.key s'.keyLen.toNat = keyBytes s.key s.keyLen.toNat := by
    rw [hlen, hbytes]
    exact keyBytes_congr hnk hkey
  obtain ⟨hrk, hnr⟩ := schedule_of_exec_expandKey hv h
  obtain ⟨hrk', hnr'⟩ := schedule_of_exec_expandKey (hlen ▸ hv) h'
  exact ⟨by rw [hrk', hrk, hsame], by rw [hnr', hnr]⟩

end Sys2Proof.Machine

/-! # The round engine (43_round_engine.md R180 to R209)

A single-step command applies one round transformation to STATE (`stepState`), and each transformation is a formula on
the byte in row `r` of column `c`. Cipher and InvCipher are lists of transformations: the events of a list are read
off from the chain of blocks it passes through, InvCipher's list undoes Cipher's in reverse order up to the indices in
the events, and the commands of a list run it one transformation at a time. -/

namespace Sys2Proof.Machine

/-! ## The transformations by bytes -/

theorem blockAt_mapBytes (f : Byte → Byte) (b : Block) (r c : Fin 4) :
    blockAt (mapBytes f b) r c = f (blockAt b r c) := by
  fin_cases c <;> fin_cases r <;> rfl

theorem blockAt_shiftRows (b : Block) (r c : Fin 4) : blockAt (shiftRows b) r c = blockAt b r (c + r) := by
  fin_cases c <;> fin_cases r <;> rfl

theorem blockAt_invShiftRows (b : Block) (r c : Fin 4) : blockAt (invShiftRows b) r c = blockAt b r (c - r) := by
  fin_cases c <;> fin_cases r <;> rfl

theorem blockCol_mapCols (f : Col → Col) (b : Block) (c : Fin 4) : blockCol (mapCols f b) c = f (blockCol b c) := by
  fin_cases c <;> rfl

theorem blockAt_addRoundKey (b k : Block) (r c : Fin 4) :
    blockAt (addRoundKey b k) r c = blockAt b r c ^^^ blockAt k r c := by
  fin_cases c <;> exact colAt_xorCol _ _ r

theorem xor_rotate (a b c d : Byte) : a ^^^ b ^^^ c ^^^ d = b ^^^ c ^^^ d ^^^ a := by ac_rfl

/-- Byte `k` of a mixed column: each row of the matrix is the row above it moved by one place (43_round_engine.md
R184). -/
theorem colAt_mixCol (t : Col) (k : Fin 4) :
    colAt (mixCol t) k = mul2 (colAt t k) ^^^ mul3 (colAt t (k + 1)) ^^^ colAt t (k + 2) ^^^ colAt t (k + 3) := by
  fin_cases k
  · rfl
  · exact xor_rotate _ _ _ _
  · exact (xor_rotate _ _ _ _).trans (xor_rotate _ _ _ _)
  · exact (xor_rotate _ _ _ _).symm

/-- Byte `k` of a column mixed back, by the inverse matrix's rows, of the same form (43_round_engine.md R185). -/
theorem colAt_invMixCol (t : Col) (k : Fin 4) :
    colAt (invMixCol t) k =
      mul14 (colAt t k) ^^^ mul11 (colAt t (k + 1)) ^^^ mul13 (colAt t (k + 2)) ^^^ mul9 (colAt t (k + 3)) := by
  fin_cases k
  · rfl
  · exact xor_rotate _ _ _ _
  · exact (xor_rotate _ _ _ _).trans (xor_rotate _ _ _ _)
  · exact (xor_rotate _ _ _ _).symm

theorem gmul_two_left (a : Byte) : gmul 2 a = mul2 a := (gmul_comm 2 a).trans (gmul_two_right a)

theorem gmul_three_left (a : Byte) : gmul 3 a = mul3 a :=
  calc gmul 3 a = gmul (2 ^^^ 1) a := rfl
    _ = mul3 a := by rw [gmul_xor_left, gmul_two_left, gmul_one_left]; rfl

/-- Column mixing as products in the field (43_round_engine.md R184). -/
theorem blockAt_mixColumns (b : Block) (k c : Fin 4) :
    blockAt (mixColumns b) k c =
      gmul 2 (blockAt b k c) ^^^ gmul 3 (blockAt b (k + 1) c) ^^^ blockAt b (k + 2) c ^^^ blockAt b (k + 3) c := by
  rw [blockAt, mixColumns, blockCol_mapCols, colAt_mixCol, ← gmul_two_left, ← gmul_three_left]
  rfl

/-- Byte `k` of column `c` of a round key is that of word `4r + c` of the store (10_state.md R42). -/
theorem blockAt_roundKey (rk : Vector Word 60) (r : Nat) (k c : Fin 4) :
    blockAt (roundKey rk r) k c = byteK k (rkWord rk (4 * r + c.val)) := by
  rw [blockAt, blockCol_roundKey, colAt_colOf]

/-! ## The transformations are inverted (43_round_engine.md R187) -/

theorem invSubBytes_subBytes (b : Block) : invSubBytes (subBytes b) = b := by
  simp [invSubBytes, subBytes, mapBytes, mapCol]

theorem subBytes_invSubBytes (b : Block) : subBytes (invSubBytes b) = b := by
  simp [invSubBytes, subBytes, mapBytes, mapCol]

/-- The first row of the inverse matrix times each column of the matrix: the doublings of the byte cancel in pairs, with
no reduction by the field's polynomial. -/
theorem invMix_mix_entries (a : Byte) :
    mul14 (mul2 a) ^^^ mul11 a ^^^ mul13 a ^^^ mul9 (mul3 a) = a ∧
    mul14 (mul3 a) ^^^ mul11 (mul2 a) ^^^ mul13 a ^^^ mul9 a = 0 ∧
    mul14 a ^^^ mul11 (mul3 a) ^^^ mul13 (mul2 a) ^^^ mul9 a = 0 ∧
    mul14 a ^^^ mul11 a ^^^ mul13 (mul3 a) ^^^ mul9 (mul2 a) = 0 := by
  simp only [mul2, mul3, mul9, mul11, mul13, mul14, xtime_xor]
  refine ⟨?_, ?_, ?_, ?_⟩ <;> grind

/-- A row of the inverse matrix applied to four mixed bytes gives the first byte back. -/
theorem invMix_mix_row (a b c d : Byte) :
    mul14 (mul2 a ^^^ mul3 b ^^^ c ^^^ d) ^^^ mul11 (mul2 b ^^^ mul3 c ^^^ d ^^^ a) ^^^
      mul13 (mul2 c ^^^ mul3 d ^^^ a ^^^ b) ^^^ mul9 (mul2 d ^^^ mul3 a ^^^ b ^^^ c) = a := by
  obtain ⟨ha, -⟩ := invMix_mix_entries a
  obtain ⟨-, hb, -⟩ := invMix_mix_entries b
  obtain ⟨-, -, hc, -⟩ := invMix_mix_entries c
  obtain ⟨-, -, -, hd⟩ := invMix_mix_entries d
  calc
    _ = (mul14 (mul2 a) ^^^ mul11 a ^^^ mul13 a ^^^ mul9 (mul3 a)) ^^^
        (mul14 (mul3 b) ^^^ mul11 (mul2 b) ^^^ mul13 b ^^^ mul9 b) ^^^
        (mul14 c ^^^ mul11 (mul3 c) ^^^ mul13 (mul2 c) ^^^ mul9 c) ^^^
        (mul14 d ^^^ mul11 d ^^^ mul13 (mul3 d) ^^^ mul9 (mul2 d)) := by
      simp only [mul14_xor, mul11_xor, mul13_xor, mul9_xor]
      ac_rfl
    _ = a := by simp [ha, hb, hc, hd]

theorem invMixCol_mixCol (t : Col) : invMixCol (mixCol t) = t := by
  refine col_ext fun k => ?_
  simpa only [colAt_invMixCol, colAt_mixCol, add_assoc, Fin.reduceAdd, add_zero] using
    invMix_mix_row (colAt t k) (colAt t (k + 1)) (colAt t (k + 2)) (colAt t (k + 3))

/-- There are finitely many columns, so the inverse on one side is one on both. -/
theorem mixCol_invMixCol (t : Col) : mixCol (invMixCol t) = t := by
  have hfinite : Finite Col := .of_injective colWord (Function.LeftInverse.injective colOf_colWord)
  have hleft : Function.LeftInverse invMixCol mixCol := invMixCol_mixCol
  exact hleft.rightInverse_of_surjective (Finite.surjective_of_injective hleft.injective) t

theorem invMixColumns_mixColumns (b : Block) : invMixColumns (mixColumns b) = b := by
  simp [invMixColumns, mixColumns, mapCols, invMixCol_mixCol]

theorem mixColumns_invMixColumns (b : Block) : mixColumns (invMixColumns b) = b := by
  simp [invMixColumns, mixColumns, mapCols, mixCol_invMixCol]

/-- Settles O22: the tables undo each other on each byte, the row shifts on each row, and the matrices on each
column. -/
theorem roundTransformationsAreInverted : Obligations.RoundTransformationsAreInverted := fun b =>
  ⟨⟨invSubBytes_subBytes b, subBytes_invSubBytes b⟩, ⟨invShiftRows_shiftRows b, shiftRows_invShiftRows b⟩,
    invMixColumns_mixColumns b, mixColumns_invMixColumns b⟩

/-! ## The single-step commands -/

/-- A single-step command writes STATE, ERR and BUSY, emits one event, and does nothing else (43_round_engine.md
R200 to R206). -/
theorem stepState_eq (st : RoundStep) (s : State) :
    stepState st s = { s with
      state := quadOf (RoundStep.apply (roundKey s.rk) st (blkOf s.state)), err := 0, pending := none,
      trace := s.trace ++ [RoundStep.event st (RoundStep.apply (roundKey s.rk) st (blkOf s.state))] } := rfl

/-- ADD_ROUND_KEY with a schedule that has the round key (43_round_engine.md R206). -/
theorem exec_addRoundKey {s : State} {r : Nat} (hks : s.ksValid = true) (hr : r ≤ rounds s) :
    exec (.addRoundKey r) s = .next (stepState (.ark r) s) := by
  simp [exec, execAddRoundKey, hks, hr]

/-- Settles O17: the new STATE is the old one with the table on each byte. -/
theorem substitutionCommandsActBytewise : Obligations.SubstitutionCommandsActBytewise := by
  intro s
  refine ⟨⟨quadOf (subBytes (blkOf s.state)), fun r c => ?_, rfl⟩,
    ⟨quadOf (invSubBytes (blkOf s.state)), fun r c => ?_, rfl⟩⟩
  · rw [byteK_quadOf, subBytes, blockAt_mapBytes, blockAt_blkOf]
  · rw [byteK_quadOf, invSubBytes, blockAt_mapBytes, blockAt_blkOf]

/-- Settles O18: the new STATE is the old one with its rows shifted; the flat permutations are the definitions
read column by column. -/
theorem rowShiftCommandsRotateRows : Obligations.RowShiftCommandsRotateRows := by
  refine ⟨fun s => ⟨⟨quadOf (shiftRows (blkOf s.state)), fun r c => ?_, rfl⟩,
    ⟨quadOf (invShiftRows (blkOf s.state)), fun r c => ?_, rfl⟩⟩, ?_⟩
  · rw [byteK_quadOf, blockAt_shiftRows, blockAt_blkOf]
  · rw [byteK_quadOf, blockAt_invShiftRows, blockAt_blkOf]
  · intros
    exact ⟨rfl, rfl⟩

/-- Settles O19: the new STATE is the old one with its columns mixed, by products in the field. -/
theorem mixColumnsMultipliesEachColumn : Obligations.MixColumnsMultipliesEachColumn := by
  refine fun s => ⟨quadOf (mixColumns (blkOf s.state)), fun k c => ?_, rfl⟩
  rw [byteK_quadOf, blockAt_mixColumns]
  simp only [blockAt_blkOf]

/-- Settles O21: the command XORs the round key's words into STATE, and the second one, with the same round key,
takes them out again. -/
theorem addRoundKeyXorsTheRoundKey : Obligations.AddRoundKeyXorsTheRoundKey := by
  refine ⟨fun b k => ⟨blockAt_addRoundKey b k, addRoundKey_addRoundKey b k⟩, fun s r hks hr _ => ?_⟩
  refine ⟨quadOf (addRoundKey (blkOf s.state) (roundKey s.rk r)), stepState (.ark r) s, fun k c => ?_,
    exec_addRoundKey hks hr, rfl, stepState (.ark r) (stepState (.ark r) s), exec_addRoundKey hks hr, ?_⟩
  · rw [byteK_quadOf, blockAt_addRoundKey, blockAt_blkOf, blockAt_roundKey, rkWord]
  · simp [stepState_eq, RoundStep.apply, addRoundKey_addRoundKey]

/-! ## Sequences of rounds -/

/-- Rounds that lead from each block of a chain to the next lead through the whole chain, with the events of each. -/
theorem runSteps_rounds (key : Nat → Block) (round : Nat → List RoundStep) (st : Nat → Block)
    (ev : Nat → List TraceEvent) (n : Nat) (h : ∀ k < n, runSteps key (round k) (st k) = (st (k + 1), ev k)) :
    runSteps key ((List.range n).flatMap round) (st 0) = (st n, (List.range n).flatMap ev) := by
  induction n with
  | zero => rfl
  | succ n ih =>
    have hrounds := ih fun k hk => h k (by omega)
    simp [List.range_succ, runSteps_append, hrounds, h n (by omega)]

/-- The same with a transformation before the rounds and a last round of its own after them. -/
theorem runSteps_first_rounds_last (key : Nat → Block) {first : RoundStep} {round : Nat → List RoundStep}
    (last : List RoundStep) {st : Nat → Block} {ev : Nat → List TraceEvent} {n : Nat} {s : Block}
    (hfirst : RoundStep.apply key first s = st 0) (h : ∀ k < n, runSteps key (round k) (st k) = (st (k + 1), ev k)) :
    runSteps key (first :: (List.range n).flatMap round ++ last) s =
      ((runSteps key last (st n)).1,
        RoundStep.event first (st 0) :: (List.range n).flatMap ev ++ (runSteps key last (st n)).2) := by
  simp [runSteps, runSteps_append, hfirst, runSteps_rounds key round st ev n h]

/-- The events of a middle round of Cipher from `b` to `b'` (60_exceptions.md R284). -/
def forwardEvents (r : Nat) (b b' : Block) : List TraceEvent :=
  [blockEvent .blkSb r (subBytes b), blockEvent .blkSr r (shiftRows (subBytes b)),
    blockEvent .blkMc r (mixColumns (shiftRows (subBytes b))), blockEvent .blkArk r b']

/-- The events of a middle round of InvCipher from `b` to `b'` with round key `k` (60_exceptions.md R284). -/
def inverseEvents (key : Nat → Block) (k : Nat) (b b' : Block) : List TraceEvent :=
  [blockEvent .blkIsr k (invShiftRows b), blockEvent .blkIsb k (invSubBytes (invShiftRows b)),
    blockEvent .blkArk k (addRoundKey (invSubBytes (invShiftRows b)) (key k)), blockEvent .blkImc k b']

/-- The block after round `r` of `Cipher(s, Nr)`, the initial AddRoundKey being round 0: the final round has no
MixColumns (43_round_engine.md R190). -/
def cipherChain (key : Nat → Block) (nr : Nat) (s : Block) : Nat → Block
  | 0 => addRoundKey s (key 0)
  | r + 1 =>
    let shifted := shiftRows (subBytes (cipherChain key nr s r))
    addRoundKey (if r + 1 = nr then shifted else mixColumns shifted) (key (r + 1))

/-- The block after `i` rounds of `InvCipher(s, Nr)`, those of round keys `Nr` to `Nr - i`: the final round has no
InvMixColumns (43_round_engine.md R191). -/
def invCipherChain (key : Nat → Block) (nr : Nat) (s : Block) : Nat → Block
  | 0 => addRoundKey s (key nr)
  | i + 1 =>
    let keyed := addRoundKey (invSubBytes (invShiftRows (invCipherChain key nr s i))) (key (nr - (i + 1)))
    if i + 1 = nr then keyed else invMixColumns keyed

/-- The block after InvCipher's round of round key `k`, the initial AddRoundKey being that of round key `Nr`. -/
def invCipherBlock (key : Nat → Block) (nr : Nat) (s : Block) (k : Nat) : Block := invCipherChain key nr s (nr - k)

section
variable (key : Nat → Block) (s : Block)

theorem cipherChain_middle {nr r : Nat} (h : r + 1 < nr) :
    cipherChain key nr s (r + 1) =
      addRoundKey (mixColumns (shiftRows (subBytes (cipherChain key nr s r)))) (key (r + 1)) := by
  simp [cipherChain, h.ne]

theorem cipherChain_final (n : Nat) :
    cipherChain key (n + 1) s (n + 1) =
      addRoundKey (shiftRows (subBytes (cipherChain key (n + 1) s n))) (key (n + 1)) := by
  simp [cipherChain]

theorem invCipherBlock_first (nr : Nat) : invCipherBlock key nr s nr = addRoundKey s (key nr) := by
  simp [invCipherBlock, invCipherChain]

theorem invCipherBlock_middle {nr k : Nat} (hk : 0 < k) (h : k < nr) :
    invCipherBlock key nr s k =
      invMixColumns (addRoundKey (invSubBytes (invShiftRows (invCipherBlock key nr s (k + 1)))) (key k)) := by
  obtain ⟨i, rfl⟩ := Nat.exists_eq_add_of_lt h
  have hnow : k + i + 1 - k = i + 1 := by omega
  have hbefore : k + i + 1 - (k + 1) = i := by omega
  have hkey : k + i + 1 - (i + 1) = k := by omega
  have hmiddle : i + 1 ≠ k + i + 1 := by omega
  simp only [invCipherBlock, hnow, hbefore, invCipherChain, hkey, if_neg hmiddle]

theorem invCipherBlock_final (n : Nat) :
    invCipherBlock key (n + 1) s 0 =
      addRoundKey (invSubBytes (invShiftRows (invCipherBlock key (n + 1) s 1))) (key 0) := by
  simp [invCipherBlock, invCipherChain]

/-- Cipher's last block and its events, along the chain of its rounds. -/
theorem cipher_eq_chain (n : Nat) :
    cipher key (n + 1) s = (cipherChain key (n + 1) s (n + 1),
      blockEvent .blkArk 0 (cipherChain key (n + 1) s 0) ::
        ((List.range n).flatMap fun k =>
          forwardEvents (k + 1) (cipherChain key (n + 1) s k) (cipherChain key (n + 1) s (k + 1))) ++
        [blockEvent .blkSb (n + 1) (subBytes (cipherChain key (n + 1) s n)),
          blockEvent .blkSr (n + 1) (shiftRows (subBytes (cipherChain key (n + 1) s n))),
          blockEvent .blkArk (n + 1) (cipherChain key (n + 1) s (n + 1))]) := by
  have hmiddle (k : Nat) (hk : k < n) : runSteps key (forwardRound (k + 1)) (cipherChain key (n + 1) s k) =
      (cipherChain key (n + 1) s (k + 1),
        forwardEvents (k + 1) (cipherChain key (n + 1) s k) (cipherChain key (n + 1) s (k + 1))) := by
    rw [cipherChain_middle key s (by omega)]
    rfl
  refine (runSteps_first_rounds_last key [.sb (n + 1), .sr (n + 1), .ark (n + 1)] rfl hmiddle).trans ?_
  rw [cipherChain_final]
  rfl

/-- InvCipher's last block and its events, along the blocks after its rounds. -/
theorem invCipher_eq_blocks (n : Nat) :
    invCipher key (n + 1) s = (invCipherBlock key (n + 1) s 0,
      blockEvent .blkArk (n + 1) (invCipherBlock key (n + 1) s (n + 1)) ::
        ((List.range n).flatMap fun j =>
          inverseEvents key (n + 1 - (j + 1)) (invCipherBlock key (n + 1) s (n + 1 - (j + 1) + 1))
            (invCipherBlock key (n + 1) s (n + 1 - (j + 1)))) ++
        [blockEvent .blkIsr 0 (invShiftRows (invCipherBlock key (n + 1) s 1)),
          blockEvent .blkIsb 0 (invSubBytes (invShiftRows (invCipherBlock key (n + 1) s 1))),
          blockEvent .blkArk 0 (invCipherBlock key (n + 1) s 0)]) := by
  have hmiddle (j : Nat) (hj : j < n) :
      runSteps key (inverseRound (n + 1 - (j + 1))) (invCipherBlock key (n + 1) s (n + 1 - j)) =
        (invCipherBlock key (n + 1) s (n + 1 - (j + 1)),
          inverseEvents key (n + 1 - (j + 1)) (invCipherBlock key (n + 1) s (n + 1 - (j + 1) + 1))
            (invCipherBlock key (n + 1) s (n + 1 - (j + 1)))) := by
    have hprev : n + 1 - j = n + 1 - (j + 1) + 1 := by omega
    rw [hprev, invCipherBlock_middle key s (k := n + 1 - (j + 1)) (by omega) (by omega)]
    rfl
  have hlast : n + 1 - n = 1 := by omega
  refine (runSteps_first_rounds_last key (first := .ark (n + 1))
    (st := fun j => invCipherBlock key (n + 1) s (n + 1 - j)) [.isr 0, .isb 0, .ark 0]
    (invCipherBlock_first key s (n + 1)).symm hmiddle).trans ?_
  rw [invCipherBlock_final, hlast]
  rfl

end

/-- Settles O23: the chain is `cipherChain`, and its rounds' events follow one another. -/
theorem cipherRunsTheRoundsInOrder : Obligations.CipherRunsTheRoundsInOrder := by
  intro key nr s hnr
  obtain ⟨n, rfl⟩ : ∃ n, nr = n + 1 := ⟨nr - 1, by omega⟩
  have hcipher := cipher_eq_chain key s n
  refine ⟨cipherChain key (n + 1) s, rfl, fun r hr hrn => ?_, cipherChain_final key s n, congrArg Prod.fst hcipher,
    congrArg Prod.snd hcipher, ?_⟩
  · obtain ⟨k, rfl⟩ : ∃ k, r = k + 1 := ⟨r - 1, by omega⟩
    exact cipherChain_middle key s hrn
  · rw [cipher, runSteps_events_length, cipherSteps_length hnr]

/-- Settles O24: the blocks are those of `invCipherBlock`, and their rounds' events follow one another. -/
theorem invCipherRunsTheRoundsInReverse : Obligations.InvCipherRunsTheRoundsInReverse := by
  intro key nr s hnr
  obtain ⟨n, rfl⟩ : ∃ n, nr = n + 1 := ⟨nr - 1, by omega⟩
  have hcipher := invCipher_eq_blocks key s n
  refine ⟨invCipherBlock key (n + 1) s, invCipherBlock_first key s (n + 1),
    fun i hi hin => invCipherBlock_middle key s (by omega) (by omega), invCipherBlock_final key s n,
    congrArg Prod.fst hcipher, congrArg Prod.snd hcipher, ?_⟩
  rw [invCipher, runSteps_events_length, invCipherSteps_length hnr]

/-! ## Undoing a sequence (43_round_engine.md R192) -/

/-- The transformation that undoes another. -/
def RoundStep.undo : RoundStep → RoundStep
  | .ark r => .ark r
  | .sb r => .isb r
  | .sr r => .isr r
  | .mc r => .imc r
  | .isr r => .sr r
  | .isb r => .sb r
  | .imc r => .mc r

/-- The transformation with the event index of its single-step command: 0, but for AddRoundKey, whose index is its round
key's (60_exceptions.md R284). -/
def RoundStep.single : RoundStep → RoundStep
  | .ark r => .ark r
  | .sb _ => .sb 0
  | .sr _ => .sr 0
  | .mc _ => .mc 0
  | .isr _ => .isr 0
  | .isb _ => .isb 0
  | .imc _ => .imc 0

@[simp] theorem RoundStep.undo_undo (st : RoundStep) : st.undo.undo = st := by
  cases st <;> rfl

theorem RoundStep.single_undo (st : RoundStep) : st.undo.single = st.single.undo := by
  cases st <;> rfl

@[simp] theorem RoundStep.apply_undo (key : Nat → Block) (st : RoundStep) (s : Block) :
    RoundStep.apply key st.undo (RoundStep.apply key st s) = s := by
  cases st with
  | ark r => exact addRoundKey_addRoundKey s (key r)
  | sb r => exact invSubBytes_subBytes s
  | sr r => exact invShiftRows_shiftRows s
  | mc r => exact invMixColumns_mixColumns s
  | isr r => exact shiftRows_invShiftRows s
  | isb r => exact subBytes_invSubBytes s
  | imc r => exact mixColumns_invMixColumns s

@[simp] theorem RoundStep.apply_single (key : Nat → Block) (st : RoundStep) (s : Block) :
    RoundStep.apply key st.single s = RoundStep.apply key st s := by
  cases st <;> rfl

theorem runSteps_map_single_fst (key : Nat → Block) (xs : List RoundStep) (s : Block) :
    (runSteps key (xs.map RoundStep.single) s).1 = (runSteps key xs s).1 := by
  induction xs generalizing s with
  | nil => rfl
  | cons x xs ih => simp [runSteps, ih]

/-- The transformations that undo a sequence, last first. -/
def undoSteps (xs : List RoundStep) : List RoundStep := (xs.map RoundStep.undo).reverse

theorem undoSteps_undoSteps (xs : List RoundStep) : undoSteps (undoSteps xs) = xs := by
  simp [undoSteps, Function.comp_def]

theorem runSteps_undoSteps (key : Nat → Block) (xs : List RoundStep) (s : Block) :
    (runSteps key (undoSteps xs) (runSteps key xs s).1).1 = s := by
  induction xs generalizing s with
  | nil => rfl
  | cons x xs ih =>
    have hxs := ih (RoundStep.apply key x s)
    simp only [undoSteps] at hxs
    simp [undoSteps, runSteps, runSteps_append, hxs]

/-- A block appended after each of a list of blocks that begin with it stands before each of them instead. -/
theorem flatMap_append_comm {α β : Type} (l : List α) (xs : List β) (f : α → List β) :
    (l.flatMap fun a => xs ++ f a) ++ xs = xs ++ l.flatMap fun a => f a ++ xs := by
  induction l with
  | nil => simp
  | cons a l ih => simp [ih]

theorem reverse_flatMap_range {β : Type} (n : Nat) (f : Nat → List β) :
    ((List.range n).flatMap f).reverse = (List.range n).flatMap fun k => (f (n - 1 - k)).reverse := by
  rw [List.reverse_flatMap, List.range_eq_range', List.reverse_range', List.flatMap_map, List.range_eq_range']
  simp

/-- The first half of each of InvCipher's rounds but the initial one, up to the indices in the events
(43_round_engine.md R191). -/
def unsubstitute : List RoundStep := [.isr 0, .isb 0]

/-- The second half of the middle round of round key `k`. -/
def unmix (k : Nat) : List RoundStep := [.ark k, .imc 0]

theorem map_single_invCipherSteps (nr : Nat) :
    (invCipherSteps nr).map RoundStep.single =
      .ark nr :: (((List.range (nr - 1)).flatMap fun k => unsubstitute ++ unmix (nr - (k + 1))) ++
        unsubstitute) ++ [.ark 0] := by
  simp [invCipherSteps, inverseRound, List.map_flatMap, RoundStep.single, unsubstitute, unmix]

theorem map_single_undoSteps_cipherSteps (nr : Nat) :
    (undoSteps (cipherSteps nr)).map RoundStep.single =
      .ark nr :: (unsubstitute ++
        (List.range (nr - 1)).flatMap fun k => unmix (nr - (k + 1)) ++ unsubstitute) ++ [.ark 0] := by
  have hindex (k : Nat) (hk : k < nr - 1) : nr - (k + 1) = nr - 1 - 1 - k + 1 := by omega
  have hrounds : ((List.range (nr - 1)).flatMap fun k => unmix (nr - (k + 1)) ++ unsubstitute) =
      (List.range (nr - 1)).flatMap fun k => unmix (nr - 1 - 1 - k + 1) ++ unsubstitute :=
    List.flatMap_congr fun k hk => by rw [hindex k (List.mem_range.1 hk)]
  rw [hrounds]
  simp [undoSteps, cipherSteps, forwardRound, reverse_flatMap_range, List.map_flatMap, RoundStep.undo,
    RoundStep.single, unsubstitute, unmix]

/-- InvCipher's transformations are those that undo Cipher's, last first: the halves of each round change places
between the two (43_round_engine.md R192). -/
theorem invCipherSteps_eq_undoSteps (nr : Nat) :
    (invCipherSteps nr).map RoundStep.single = (undoSteps (cipherSteps nr)).map RoundStep.single := by
  rw [map_single_invCipherSteps, map_single_undoSteps_cipherSteps, flatMap_append_comm]

theorem undoSteps_map_single (xs : List RoundStep) :
    undoSteps (xs.map RoundStep.single) = (undoSteps xs).map RoundStep.single := by
  simp [undoSteps, Function.comp_def, RoundStep.single_undo]

theorem cipherSteps_eq_undoSteps (nr : Nat) :
    (cipherSteps nr).map RoundStep.single = (undoSteps (invCipherSteps nr)).map RoundStep.single := by
  rw [← undoSteps_map_single, invCipherSteps_eq_undoSteps, undoSteps_map_single, undoSteps_undoSteps]

/-- A sequence that undoes another up to the event indices leads back to its first block. -/
theorem runSteps_inverse {xs ys : List RoundStep} (h : ys.map RoundStep.single = (undoSteps xs).map RoundStep.single)
    (key : Nat → Block) (s : Block) : (runSteps key ys (runSteps key xs s).1).1 = s := by
  rw [← runSteps_map_single_fst, h, runSteps_map_single_fst, runSteps_undoSteps]

/-- Settles O26: each of the two sequences is that which undoes the other, up to the indices in the events. -/
theorem invCipherUndoesCipher : Obligations.InvCipherUndoesCipher := fun key nr s =>
  ⟨runSteps_inverse (invCipherSteps_eq_undoSteps nr) key s, runSteps_inverse (cipherSteps_eq_undoSteps nr) key s⟩

/-! ## One transformation at a time (43_round_engine.md R209) -/

/-- The single-step command of a transformation (43_round_engine.md R200 to R206). -/
def RoundStep.command : RoundStep → Instr
  | .ark r => .addRoundKey r
  | .sb _ => .subBytes
  | .sr _ => .shiftRows
  | .mc _ => .mixColumns
  | .isr _ => .invShiftRows
  | .isb _ => .invSubBytes
  | .imc _ => .invMixColumns

/-- The sequence uses round keys of the schedule alone. -/
def KeysWithin (nr : Nat) (xs : List RoundStep) : Prop := ∀ r, .ark r ∈ xs → r ≤ nr

theorem exec_command {s : State} {st : RoundStep} (hks : s.ksValid = true) (hr : KeysWithin (rounds s) [st]) :
    exec st.command s = .next (stepState st.single s) := by
  cases st with
  | ark r => exact exec_addRoundKey hks (hr r List.mem_cons_self)
  | sb | sr | mc | isr | isb | imc => rfl

/-- The commands of a sequence leave the sequence's last block in STATE and emit its events with the single-step
commands' indices. -/
theorem execAll_commands {s : State} {xs : List RoundStep} (hks : s.ksValid = true)
    (hr : KeysWithin (rounds s) xs) : ∃ t, execAll (xs.map RoundStep.command) s = .next t ∧
      t.state = quadOf (runSteps (roundKey s.rk) xs (blkOf s.state)).1 ∧
      t.trace = s.trace ++ (runSteps (roundKey s.rk) (xs.map RoundStep.single) (blkOf s.state)).2 := by
  induction xs generalizing s with
  | nil => exact ⟨s, rfl, by simp [runSteps], by simp [runSteps]⟩
  | cons x xs ih =>
    obtain ⟨t, hexec, hstate, htrace⟩ := ih (s := stepState x.single s) hks fun r hmem => hr r (.tail x hmem)
    have hfirst := exec_command (st := x) hks fun r hmem =>
      hr r (List.mem_singleton.1 hmem ▸ List.mem_cons_self)
    refine ⟨t, by rw [List.map_cons, execAll, hfirst]; exact hexec, ?_, ?_⟩
    · simpa [stepState_eq, runSteps] using hstate
    · simpa [stepState_eq, runSteps] using htrace

/-- An event but for its index. -/
def kindAndData (e : TraceEvent) : TraceKind × BitVec 128 := (e.kind, e.data)

theorem kindAndData_event_single (st : RoundStep) (b : Block) :
    kindAndData (RoundStep.event st.single b) = kindAndData (RoundStep.event st b) := by
  cases st <;> rfl

theorem runSteps_map_single_events (key : Nat → Block) (xs : List RoundStep) (b : Block) :
    (runSteps key (xs.map RoundStep.single) b).2.map kindAndData = (runSteps key xs b).2.map kindAndData := by
  induction xs generalizing b with
  | nil => rfl
  | cons x xs ih => simp [runSteps, ih, kindAndData_event_single]

theorem map_command_cipherSteps (nr : Nat) : (cipherSteps nr).map RoundStep.command = encrypterCommands nr := by
  simp [cipherSteps, forwardRound, encrypterCommands, List.map_flatMap, RoundStep.command]

theorem map_command_invCipherSteps (nr : Nat) : (invCipherSteps nr).map RoundStep.command = decrypterCommands nr := by
  simp [invCipherSteps, inverseRound, decrypterCommands, List.map_flatMap, RoundStep.command]

theorem keysWithin_cipherSteps (nr : Nat) : KeysWithin nr (cipherSteps nr) := by
  intro r hr
  have hindex : r = 0 ∨ (∃ k < nr - 1, r = k + 1) ∨ r = nr := by simpa [cipherSteps, forwardRound] using hr
  omega

theorem keysWithin_invCipherSteps (nr : Nat) : KeysWithin nr (invCipherSteps nr) := by
  intro r hr
  have hindex : r = nr ∨ (∃ k < nr - 1, r = nr - (k + 1)) ∨ r = 0 := by
    simpa [invCipherSteps, inverseRound] using hr
  omega

/-- The commands of a sequence and the whole-block command of it leave the same STATE and emit the same kinds and data
in the same order. -/
theorem execAll_commands_blockState {i : Instr} {s : State} {xs : List RoundStep} (hks : s.ksValid = true)
    (hr : KeysWithin (rounds s) xs) (hi : exec i s = .next (blockState xs s)) :
    ∃ t u et eu, execAll (xs.map RoundStep.command) s = .next t ∧ exec i s = .next u ∧ t.state = u.state ∧
      t.trace = s.trace ++ et ∧ u.trace = s.trace ++ eu ∧ et.map kindAndData = eu.map kindAndData := by
  obtain ⟨t, hexec, hstate, htrace⟩ := execAll_commands hks hr
  exact ⟨t, blockState xs s, _, (runSteps (roundKey s.rk) xs (blkOf s.state)).2, hexec, hi, hstate, htrace, rfl,
    runSteps_map_single_events _ _ _⟩

theorem exec_encState {s : State} (hks : s.ksValid = true) :
    exec .encState s = .next (blockState (cipherSteps (rounds s)) s) := by
  simp [exec, execEncState, hks]

theorem exec_decState {s : State} (hks : s.ksValid = true) :
    exec .decState s = .next (blockState (invCipherSteps (rounds s)) s) := by
  simp [exec, execDecState, hks]

/-- Settles O27: the two command lists are those of Cipher's and of InvCipher's transformations, with no round key above
NR. -/
theorem singleStepsComposeToTheBlockCommands : Obligations.SingleStepsComposeToTheBlockCommands := by
  intro s hks _
  rw [← map_command_cipherSteps, ← map_command_invCipherSteps]
  have hencrypt := execAll_commands_blockState hks (keysWithin_cipherSteps (rounds s)) (exec_encState hks)
  have hdecrypt := execAll_commands_blockState hks (keysWithin_invCipherSteps (rounds s)) (exec_decState hks)
  exact ⟨hencrypt, hdecrypt⟩

end Sys2Proof.Machine

/-! # The mode controller (44_mode_controller.md R222 to R238)

MSG_START opens a message or reports the first check that fails; MSG_BLOCK passes DIN through the open message by
direction and mode. A message's outputs are those of the chaining rules (`chainBlocks`) from the vector, direction, mode
and schedule MSG_START latches, and the chaining rules of decryption undo those of encryption block by block. -/

namespace Sys2Proof.Machine

/-! ## MSG_START -/

theorem msgLenOk_iff {s : State} : msgLenOk s = true ↔ s.msgLen ≠ 0 ∧ s.msgLen.toNat % 16 = 0 := by
  simp [msgLenOk]

/-- MSG_START with an accepted length and key (44_mode_controller.md R222). -/
theorem exec_msgStart {s : State} {nk nr : Nat} (hlen : msgLenOk s = true)
    (hv : variant s.keyLen.toNat = some (nk, nr)) :
    exec .msgStart s = .next (succeed (openMessage (expandAndStore nk nr s))) := by
  simp [exec, execMsgStart, hlen, hv]

/-- MSG_START with a length that is not accepted, whatever the key (44_mode_controller.md R224). -/
theorem exec_msgStart_badLength {s : State} (hlen : ¬ msgLenOk s = true) :
    exec .msgStart s = .next (raiseError .invalidFormat (endMessage s)) := by
  simp [exec, execMsgStart, hlen]

/-- MSG_START with an accepted length and a key that is not. -/
theorem exec_msgStart_badKey {s : State} (hlen : msgLenOk s = true) (hv : variant s.keyLen.toNat = none) :
    exec .msgStart s = .next (raiseError .invalidKeySize (endMessage s)) := by
  simp [exec, execMsgStart, hlen, hv]

/-- BLOCKS_LEFT is wide enough for the blocks of every length (10_state.md R38). -/
theorem msgBlocks_toNat (s : State) : (msgBlocks s).toNat = s.msgLen.toNat / 16 := by
  have hlt : s.msgLen.toNat < 2 ^ 32 := s.msgLen.isLt
  rw [msgBlocks, BitVec.toNat_ofNat]
  omega

theorem quadOf_startVector_of_ivEn {s : State} (h : ctrlIvEn s = true) : quadOf (startVector s) = s.iv := by
  simp [startVector, h]

theorem quadOf_startVector_of_not_ivEn {s : State} (h : ctrlIvEn s = false) :
    quadOf (startVector s) = ⟨0, 0, 0, 0⟩ := by
  simp [startVector, h, quadOf_zeroBlock]

theorem ctrlDir_eq_decrypt_iff {s : State} : ctrlDir s = .decrypt ↔ s.ctrl.getLsbD 0 = true := by
  simp [ctrlDir]

theorem ctrlDir_eq_encrypt_iff {s : State} : ctrlDir s = .encrypt ↔ s.ctrl.getLsbD 0 = false := by
  simp [ctrlDir]

theorem ctrlMode_eq_cbc_iff {s : State} : ctrlMode s = .cbc ↔ s.ctrl.getLsbD 1 = true := by
  simp [ctrlMode]

/-- Settles O28: the schedule's store and the opening of the message write the fields named and no other. -/
theorem msgStartOpensAMessage : Obligations.MsgStartOpensAMessage := fun s _ _ hne hmod hv =>
  ⟨_, exec_msgStart (msgLenOk_iff.2 ⟨hne, hmod⟩) hv, quadOf_startVector_of_ivEn (s := s),
    quadOf_startVector_of_not_ivEn (s := s), ctrlDir_eq_decrypt_iff.symm, ctrlMode_eq_cbc_iff.symm,
    msgBlocks_toNat s, rfl⟩

/-- A key length other than those of the three variants has none (42_key_schedule.md R160). -/
theorem variant_keyLen_eq_none {n : BitVec 8} (h16 : n ≠ 16) (h24 : n ≠ 24) (h32 : n ≠ 32) :
    variant n.toNat = none :=
  variant_none_iff.2 ⟨fun h => h16 (BitVec.eq_of_toNat_eq h), fun h => h24 (BitVec.eq_of_toNat_eq h),
    fun h => h32 (BitVec.eq_of_toNat_eq h)⟩

/-- Settles O29: a word that does not decode reaches no check of MSG_START, and of its checks that of the length is
the first. -/
theorem msgStartChecksInOrder : Obligations.MsgStartChecksInOrder := by
  refine ⟨fun s v e _ hd => ⟨_, complete_error hd s, rfl⟩, fun s hbad => exec_msgStart_badLength fun hlen => ?_,
    fun s hne hmod h16 h24 h32 =>
      exec_msgStart_badKey (msgLenOk_iff.2 ⟨hne, hmod⟩) (variant_keyLen_eq_none h16 h24 h32)⟩
  obtain ⟨hne, hmod⟩ := msgLenOk_iff.1 hlen
  exact hbad.elim hne fun h => h hmod

/-! ## MSG_BLOCK -/

theorem exec_msgBlock_open {s : State} (hm : s.msgActive = true) : exec .msgBlock s = .next (passDin s) := by
  simp [exec, execMsgBlock, hm]

theorem exec_msgBlock_closed {s : State} (hm : s.msgActive = false) :
    exec .msgBlock s = .next (raiseError .noMessage s) := by
  simp [exec, execMsgBlock, hm]

/-- What the chaining rules give for the block in DIN and the open message (44_mode_controller.md R230). -/
def dinResult (s : State) : BlockResult :=
  passBlock (roundKey s.rk) (rounds s) s.msgDir s.msgMode (blkOf s.cv) (blkOf s.din)

/-- The message stays open but after its last block (44_mode_controller.md R235). -/
theorem sub_one_ne_zero_iff {n : BitVec 28} : n - 1 ≠ 0 ↔ n ≠ 1 := by bv_omega

/-- MSG_BLOCK writes the result's blocks and events, counts the block and uses the working block; nothing else
changes. -/
theorem passDin_eq (s : State) :
    passDin s = { s with
      dout := quadOf (dinResult s).out, cv := quadOf (dinResult s).cv, trace := s.trace ++ (dinResult s).events,
      work := Config.freeWork s.draws, draws := s.draws + 1, blocksLeft := s.blocksLeft - 1,
      msgActive := decide (s.blocksLeft ≠ 1), doutValid := true, err := 0, pending := none } := by
  simp only [← sub_one_ne_zero_iff]
  rfl

/-- Settles O30: direction and mode select one row of the chaining rules each. -/
theorem msgBlockChainsByDirectionAndMode : Obligations.MsgBlockChainsByDirectionAndMode := by
  intro s hm key nr p cv
  refine ⟨passDin s, exec_msgBlock_open hm, ?_, ?_, ?_, ?_, passDin_eq s⟩
  all_goals
    intro hdir hmode
    have hresult : dinResult s = passBlock key nr s.msgDir s.msgMode cv p := rfl
    simp [passDin_eq, hresult, passBlock, hdir, hmode, p, cv]

/-- Settles O31: the count falls to 0 and the message is closed, and without an open message MSG_BLOCK is an error and
no more. -/
theorem lastBlockEndsTheMessage : Obligations.LastBlockEndsTheMessage := by
  refine ⟨fun s hm hlast => ?_, fun s hm => exec_msgBlock_closed hm⟩
  have hcount : (passDin s).blocksLeft = 0 := by rw [passDin_eq, hlast]; rfl
  have hclosed : (passDin s).msgActive = false := by rw [passDin_eq, hlast]; rfl
  exact ⟨_, exec_msgBlock_open hm, hclosed, hcount, rfl, exec_msgBlock_closed hclosed⟩

/-! ## Whole messages -/

/-- The operand registers of a message are as they were. -/
structure SameMessageOperands (s t : State) : Prop where
  ctrl : t.ctrl = s.ctrl
  keyLen : t.keyLen = s.keyLen
  msgLen : t.msgLen = s.msgLen
  key : t.key = s.key
  iv : t.iv = s.iv

theorem SameMessageOperands.trans {s t u : State} (hst : SameMessageOperands s t) (htu : SameMessageOperands t u) :
    SameMessageOperands s u :=
  ⟨htu.ctrl.trans hst.ctrl, htu.keyLen.trans hst.keyLen, htu.msgLen.trans hst.msgLen, htu.key.trans hst.key,
    htu.iv.trans hst.iv⟩

/-- The result for a block the host has written to DIN. -/
theorem dinResult_set_din (s : State) (p : Block) :
    dinResult { s with din := quadOf p } =
      passBlock (roundKey s.rk) (rounds s) s.msgDir s.msgMode (blkOf s.cv) p := by
  simp [dinResult, rounds]

/-- In an open message the first block's output is that of the chaining rules, and the rest pass after it. -/
theorem passBlocks_cons_open {s : State} (hm : s.msgActive = true) (p : Block) (ps : List Block) :
    passBlocks (p :: ps) s =
      (passBlocks ps (passDin { s with din := quadOf p })).map fun (u, outs) =>
        (u, (passBlock (roundKey s.rk) (rounds s) s.msgDir s.msgMode (blkOf s.cv) p).out :: outs) := by
  have hdout (s : State) : blkOf (passDin s).dout = (dinResult s).out := by simp [passDin_eq]
  have hsucceeds (s : State) : (passDin s).err = 0 := rfl
  rw [passBlocks, exec_msgBlock_open (s := { s with din := quadOf p }) hm]
  simp only [hsucceeds, hdout, dinResult_set_din, if_true]

/-- Blocks passed through an open message give the outputs of the chaining rules, as long as BLOCKS_LEFT counts them
(44_mode_controller.md R231 to R235). -/
theorem passBlocks_eq_chainBlocks {s : State} {ps : List Block} (hcount : ps.length ≤ s.blocksLeft.toNat)
    (hm : s.msgActive = decide (s.blocksLeft ≠ 0)) : ∃ t, SameMessageOperands s t ∧
      passBlocks ps s =
        some (t, chainBlocks (roundKey s.rk) (rounds s) s.msgDir s.msgMode (blkOf s.cv) ps) := by
  induction ps generalizing s with
  | nil => exact ⟨s, ⟨rfl, rfl, rfl, rfl, rfl⟩, rfl⟩
  | cons p ps ih =>
    have hcount' : ps.length + 1 ≤ s.blocksLeft.toNat := hcount
    have hleft : s.blocksLeft ≠ 0 := by bv_omega
    have hfall : ps.length ≤ (s.blocksLeft - 1).toNat := by bv_omega
    have hfirst : SameMessageOperands s (passDin { s with din := quadOf p }) := ⟨rfl, rfl, rfl, rfl, rfl⟩
    have hcv : blkOf (passDin { s with din := quadOf p }).cv =
        (passBlock (roundKey s.rk) (rounds s) s.msgDir s.msgMode (blkOf s.cv) p).cv := by
      simp [passDin_eq, dinResult_set_din]
    obtain ⟨t, hsame, hrest⟩ := ih (s := passDin { s with din := quadOf p }) hfall rfl
    refine ⟨t, hfirst.trans hsame, ?_⟩
    rw [passBlocks_cons_open (hm.trans (decide_eq_true hleft)), hrest, hcv]
    rfl

/-- The outputs of a message in direction `dir`, the rest of its operands as the registers have them. -/
def messageOutputs (s : State) (nk nr : Nat) (dir : Dir) (ps : List Block) : List Block :=
  chainBlocks (roundKey (scheduleStore (keyExpansion (keyBytes s.key s.keyLen.toNat) nk nr).1 nr)) nr dir (ctrlMode s)
    (startVector s) ps

/-- A message of the length in MSG_LEN with an accepted key passes without an error, and its outputs are those of the
chaining rules (44_mode_controller.md R220, R222). -/
theorem passMessage_eq_messageOutputs {s : State} {ps : List Block} {nk nr : Nat} (hne : s.msgLen ≠ 0)
    (hlen : s.msgLen.toNat = 16 * ps.length) (hv : variant s.keyLen.toNat = some (nk, nr)) :
    ∃ t, SameMessageOperands s t ∧ passMessage ps s = some (t, messageOutputs s nk nr (ctrlDir s) ps) := by
  have hok : msgLenOk s = true := msgLenOk_iff.2 ⟨hne, by omega⟩
  have hopened : (msgBlocks s).toNat = ps.length := by rw [msgBlocks_toNat]; omega
  have hrounds : rounds (succeed (openMessage (expandAndStore nk nr s))) = nr := by
    obtain ⟨-, -, -, -, hnr⟩ := variant_bounds hv
    exact Nat.mod_eq_of_lt (by omega)
  have hstart : SameMessageOperands s (succeed (openMessage (expandAndStore nk nr s))) := ⟨rfl, rfl, rfl, rfl, rfl⟩
  obtain ⟨t, hsame, hpass⟩ := passBlocks_eq_chainBlocks (s := succeed (openMessage (expandAndStore nk nr s)))
    (ps := ps) hopened.ge (decide_eq_true (msgBlocks_ne_zero hok)).symm
  refine ⟨t, hstart.trans hsame, ?_⟩
  have hvector : blkOf (succeed (openMessage (expandAndStore nk nr s))).cv = startVector s := blkOf_quadOf _
  rw [hrounds, hvector] at hpass
  rw [passMessage, exec_msgStart hok hv]
  exact hpass

/-! ## Decryption undoes encryption -/

/-- Decryption of a block's output gives the block back and leaves the chaining vector encryption left
(44_mode_controller.md R231 to R234). -/
theorem passBlock_decrypt_encrypt (key : Nat → Block) (nr : Nat) (mode : Mode) (cv p : Block) :
    (passBlock key nr .decrypt mode cv (passBlock key nr .encrypt mode cv p).out).out = p ∧
      (passBlock key nr .decrypt mode cv (passBlock key nr .encrypt mode cv p).out).cv =
        (passBlock key nr .encrypt mode cv p).cv := by
  have hundo (b : Block) : (invCipher key nr (cipher key nr b).1).1 = b := (invCipherUndoesCipher key nr b).1
  cases mode with
  | ecb => exact ⟨hundo p, rfl⟩
  | cbc => exact ⟨by simp [passBlock, hundo], rfl⟩

theorem chainBlocks_decrypt_encrypt (key : Nat → Block) (nr : Nat) (mode : Mode) (cv : Block) (ps : List Block) :
    chainBlocks key nr .decrypt mode cv (chainBlocks key nr .encrypt mode cv ps) = ps := by
  induction ps generalizing cv with
  | nil => rfl
  | cons p ps ih =>
    obtain ⟨hout, hcv⟩ := passBlock_decrypt_encrypt key nr mode cv p
    simp [chainBlocks, hout, hcv, ih]

theorem chainBlocks_length (key : Nat → Block) (nr : Nat) (dir : Dir) (mode : Mode) (cv : Block) (ps : List Block) :
    (chainBlocks key nr dir mode cv ps).length = ps.length := by
  induction ps generalizing cv with
  | nil => rfl
  | cons p ps ih => simp [chainBlocks, ih]

/-- The host sets CTRL.DIR (10_state.md R24). -/
def setDir (s : State) : State := { s with ctrl := s.ctrl ||| 1 }

theorem ctrlDir_setDir (s : State) : ctrlDir (setDir s) = .decrypt :=
  ctrlDir_eq_decrypt_iff.2 (by simp [setDir])

/-- Setting DIR keeps MODE and IV_EN (10_state.md R24), so a message in a given direction has the same outputs. -/
theorem messageOutputs_setDir {s t : State} (h : SameMessageOperands s t) (nk nr : Nat) (dir : Dir)
    (ps : List Block) : messageOutputs (setDir t) nk nr dir ps = messageOutputs s nk nr dir ps := by
  simp [messageOutputs, setDir, ctrlMode, startVector, ctrlIvEn, h.ctrl, h.keyLen, h.key, h.iv]

/-- Settles O32: both passes give the outputs of the chaining rules from the same key, mode and first vector, and those
of decryption undo those of encryption. -/
theorem decryptedMessageIsTheOriginal : Obligations.DecryptedMessageIsTheOriginal := by
  intro s ps nk nr hne hlen hv hdir
  obtain ⟨t, hsame, hencrypt⟩ := passMessage_eq_messageOutputs hne hlen hv
  rw [ctrlDir_eq_encrypt_iff.2 hdir] at hencrypt
  have hlen' : t.msgLen.toNat = 16 * (messageOutputs s nk nr .encrypt ps).length := by
    rw [messageOutputs, chainBlocks_length, hsame.msgLen, hlen]
  obtain ⟨u, -, hdecrypt⟩ :=
    passMessage_eq_messageOutputs (s := setDir t) (hsame.msgLen.symm ▸ hne) hlen' (hsame.keyLen.symm ▸ hv)
  rw [ctrlDir_setDir, messageOutputs_setDir hsame, messageOutputs, messageOutputs,
    chainBlocks_decrypt_encrypt] at hdecrypt
  exact ⟨t, _, hencrypt, u, hdecrypt⟩

end Sys2Proof.Machine

/-! # NOP (45_control.md R250) -/

namespace Sys2Proof.Machine

/-- NOP writes ERR and BUSY, and nothing else (45_control.md R250). -/
theorem exec_nop (s : State) : exec .nop s = .next { s with err := 0, pending := none } := rfl

/-- Settles O8: the all-zero word is NOP's encoding and the only legal word with its opcode, a write of it to CMD is an
issue, and the completion writes only ERR and BUSY. -/
theorem nopOnlyClearsTheError : Obligations.NopOnlyClearsTheError := by
  have hfixed : ∀ n, Instr.nop ≠ .addRoundKey n := nofun
  exact ⟨(decode_eq_ok_iff_fixed hfixed).2 rfl, fun _ hop hw => decode_fixed_opcode_error hfixed hop hw,
    fun _ _ hr hp hi => ⟨_, step_issue hr hp hi, rfl, rfl⟩, exec_nop⟩

end Sys2Proof.Machine

/-! # The trace is observation only (60_exceptions.md R282)

Two outcomes that agree but for the trace (`SameButTrace`) are compared arm by arm: no guard of a command or of an
access reads the trace, and every arm leaves it alone or appends events that do not depend on it. -/

namespace Sys2Proof.Machine

/-- `s` with another trace. -/
def withTrace (tr : List TraceEvent) (s : State) : State := { s with trace := tr }

/-- The outcome `o'` is `o` but for the trace: from a trace `tr'` in place of `tr` the same events are appended. -/
def SameButTrace (tr tr' : List TraceEvent) (o o' : Host.Outcome State Fault Refusal) : Prop :=
  ∃ es : List TraceEvent, (∀ t, o = .next t → t.trace = tr ++ es) ∧
    o' = mapNext (withTrace (tr' ++ es)) o

section
variable {tr tr' : List TraceEvent} {o o' p p' : Host.Outcome State Fault Refusal} {t : State}

theorem SameButTrace.appends (es : List TraceEvent) (h : t.trace = tr ++ es) :
    SameButTrace tr tr' (.next t) (.next (withTrace (tr' ++ es) t)) :=
  ⟨es, fun _ ht => by cases ht; exact h, rfl⟩

theorem SameButTrace.silent (h : t.trace = tr) : SameButTrace tr tr' (.next t) (.next (withTrace tr' t)) := by
  simpa using SameButTrace.appends (tr' := tr') [] (h.trans (List.append_nil tr).symm)

theorem SameButTrace.fault (e : Fault) : SameButTrace tr tr' (.fault e) (.fault e) := ⟨[], (fun _ h => by cases h), rfl⟩

/-- A guard that does not read the trace. -/
theorem SameButTrace.ite {c : Prop} [Decidable c] (ho : SameButTrace tr tr' o o') (hp : SameButTrace tr tr' p p') :
    SameButTrace tr tr' (if c then o else p) (if c then o' else p') := by
  split
  · exact ho
  · exact hp

end

/-! ## Commands -/

/-- EXPAND_KEY with a key length that is not accepted (42_key_schedule.md R170). -/
theorem exec_expandKey_badKey {s : State} (hv : variant s.keyLen.toNat = none) :
    exec .expandKey s = .next (raiseError .invalidKeySize s) := by
  simp only [exec, execExpandKey, hv]

/-- No command's result depends on the trace. -/
theorem exec_sameButTrace (i : Instr) (s : State) (tr : List TraceEvent) :
    SameButTrace s.trace tr (exec i s) (exec i (withTrace tr s)) := by
  cases i with
  | nop | gfMul => exact .silent rfl
  | subBytes | invSubBytes | shiftRows | invShiftRows | mixColumns | invMixColumns => exact .appends _ rfl
  | encState | decState => exact .ite (.silent rfl) (.appends _ rfl)
  | addRoundKey r => exact .ite (.silent rfl) (.ite (.silent rfl) (.appends _ rfl))
  | msgBlock => exact .ite (.silent rfl) (.appends _ rfl)
  | expandKey =>
    cases hv : variant s.keyLen.toNat with
    | none =>
      rw [exec_expandKey_badKey hv, exec_expandKey_badKey (s := withTrace tr s) hv]
      exact .silent rfl
    | some v =>
      rw [exec_expandKey hv, exec_expandKey (s := withTrace tr s) hv]
      exact .appends _ rfl
  | msgStart =>
    refine .ite (.silent rfl) ?_
    cases hv : variant s.keyLen.toNat with
    | none => rw [withTrace, hv]; exact .silent rfl
    | some v => rw [withTrace, hv]; exact .appends _ rfl

theorem complete_sameButTrace (w : Word) (s : State) (tr : List TraceEvent) :
    SameButTrace s.trace tr (complete w s) (complete w (withTrace tr s)) := by
  cases hd : decode w with
  | ok i =>
    rw [complete_ok hd, complete_ok hd]
    exact exec_sameButTrace i s tr
  | error e =>
    rw [complete_error hd, complete_error hd]
    exact .silent rfl

/-! ## The host's turn -/

/-- No register reads the trace. -/
theorem busRead_trace (off : BitVec 9) (s : State) (tr : List TraceEvent) :
    busRead off (withTrace tr s) = busRead off s := by
  unfold busRead
  split
  · next r _ => cases r <;> rfl
  · rfl

theorem busWrite_withTrace (off : BitVec 9) (v : Word) (s : State) (tr : List TraceEvent) :
    busWrite off v (withTrace tr s) = withTrace tr (busWrite off v s) := by
  unfold busWrite
  split
  · next r _ => cases r <;> rfl
  · rfl

theorem busWrite_trace (off : BitVec 9) (v : Word) (s : State) : (busWrite off v s).trace = s.trace := by
  obtain ⟨-, -, -, -, -, -, -, -, -, -, -, -, -, -, htrace, -⟩ := busWrite_frame off v s
  exact htrace

theorem hostAct_sameButTrace (a : HostAction) (s : State) (tr : List TraceEvent) :
    SameButTrace s.trace tr (hostAct a s) (hostAct a (withTrace tr s)) := by
  cases a with
  | idle => exact .silent rfl
  | read size off =>
    refine .ite (.fault _) (.ite (.fault _) (.ite (.silent rfl) ?_))
    rw [busRead_trace]
    exact .silent rfl
  | write size off v =>
    refine .ite (.fault _) (.ite (.fault _) (.ite (.fault _) ?_))
    rw [busWrite_withTrace]
    exact .silent (busWrite_trace off v s)
  | poll => exact .ite (.fault _) (.ite (.silent rfl) (.silent rfl))
  | driveRst high =>
    cases high with
    | false => exact .silent rfl
    | true => exact .silent rfl

theorem hostTurn_nil {s : State} (hi : s.inputs = []) : hostTurn s = .next s := by
  simp [hostTurn, hi]

theorem hostTurn_sameButTrace (s : State) (tr : List TraceEvent) :
    SameButTrace s.trace tr (hostTurn s) (hostTurn (withTrace tr s)) := by
  cases hi : s.inputs with
  | nil =>
    rw [hostTurn_nil hi, hostTurn_nil (s := withTrace tr s) hi]
    exact .silent rfl
  | cons a rest =>
    rw [hostTurn_cons hi, hostTurn_cons (s := withTrace tr s) hi]
    exact hostAct_sameButTrace a { s with inputs := rest } tr

/-! ## Steps -/

theorem step_sameButTrace (s : State) (tr : List TraceEvent) :
    SameButTrace s.trace tr (step s) (step (withTrace tr s)) := by
  rcases hp : s.pending with _ | ⟨w, _ | n⟩
  · rw [step_idle hp, step_idle (s := withTrace tr s) hp]
    exact hostTurn_sameButTrace s tr
  · rw [step_due hp, step_due (s := withTrace tr s) hp]
    exact complete_sameButTrace w s tr
  · rw [step_waiting hp, step_waiting (s := withTrace tr s) hp]
    exact hostTurn_sameButTrace { s with pending := some ⟨w, n⟩ } tr

/-- Settles O58: every turn, of the engine or of the host, is the same but for the trace. -/
theorem traceIsObservationOnly : Obligations.TraceIsObservationOnly := step_sameButTrace

end Sys2Proof.Machine

/-! # Errors (60_exceptions.md R260 to R264)

`commandError` is the code a command leaves in ERR, by the first of its checks that fails. A command that fails leaves
`failedState`; every other ends with ERR = 0. Both read neither ERR nor anything a failure writes, which is why errors
are not sticky. -/

namespace Sys2Proof.Machine

/-! ## The error of a command -/

/-- The code of the first check that fails, or success (60_exceptions.md R260, R264). -/
def commandError (i : Instr) (s : State) : ErrCode :=
  match i with
  | .expandKey => if variant s.keyLen.toNat = none then .invalidKeySize else .ok
  | .encState | .decState => if !s.ksValid then .noKeySchedule else .ok
  | .addRoundKey r => if !s.ksValid then .noKeySchedule else if rounds s < r then .badRound else .ok
  | .msgStart =>
    if !msgLenOk s then .invalidFormat
    else if variant s.keyLen.toNat = none then .invalidKeySize else .ok
  | .msgBlock => if !s.msgActive then .noMessage else .ok
  | _ => .ok

/-- What a failed command leaves; a failed MSG_START also ends an open message (60_exceptions.md R262). -/
def failedState (i : Instr) (e : ErrCode) (s : State) : State :=
  raiseError e (if i = .msgStart then endMessage s else s)

/-- An outcome of the command `i` with the code `e`: a failure without a partial result, or a success. -/
inductive EndsWith (i : Instr) (s : State) : ErrCode → Host.Outcome State Fault Refusal → Prop where
  | failed (e : ErrCode) : EndsWith i s e (.next (failedState i e s))
  | succeeded (t : State) : EndsWith i s .ok (.next (succeed t))

theorem EndsWith.ite {i : Instr} {s : State} {e e' : ErrCode} {o o' : Host.Outcome State Fault Refusal} {c : Prop}
    [Decidable c] (h : EndsWith i s e o) (h' : EndsWith i s e' o') :
    EndsWith i s (if c then e else e') (if c then o else o') := by
  split
  · exact h
  · exact h'

/-- Every command ends with the code of its first check that fails. -/
theorem exec_endsWith (i : Instr) (s : State) : EndsWith i s (commandError i s) (exec i s) := by
  cases i with
  | nop | gfMul => exact .succeeded _
  | subBytes | invSubBytes | shiftRows | invShiftRows | mixColumns | invMixColumns => exact .succeeded _
  | encState | decState => exact .ite (.failed _) (.succeeded _)
  | addRoundKey r => exact .ite (.failed _) (.ite (.failed _) (.succeeded _))
  | msgBlock => exact .ite (.failed _) (.succeeded _)
  | expandKey =>
    simp only [commandError]
    cases hv : variant s.keyLen.toNat with
    | none => exact exec_expandKey_badKey hv ▸ .failed _
    | some v => exact exec_expandKey hv ▸ .succeeded _
  | msgStart =>
    refine .ite (.failed _) ?_
    cases hv : variant s.keyLen.toNat with
    | none => exact .failed _
    | some v => exact .succeeded _

theorem exec_err {i : Instr} {s t : State} (h : exec i s = .next t) : t.err = ErrCode.code (commandError i s) := by
  have hends : EndsWith i s (commandError i s) (.next t) := h ▸ exec_endsWith i s
  generalize commandError i s = e at hends
  cases hends with
  | failed | succeeded => rfl

theorem exec_eq_failedState {i : Instr} {s t : State} (h : exec i s = .next t) (herr : t.err ≠ 0) :
    t = failedState i (commandError i s) s := by
  have hends : EndsWith i s (commandError i s) (.next t) := h ▸ exec_endsWith i s
  generalize commandError i s = e at hends
  cases hends with
  | failed => rfl
  | succeeded => exact absurd rfl herr

/-! ## The causes

Each goes through the branches of `commandError`: what a branch's guards say is the cause, or contradicts it. -/

theorem ErrCode.code_inj {e e' : ErrCode} : ErrCode.code e = ErrCode.code e' ↔ e = e' := by
  cases e <;> cases e' <;> decide

theorem variant_keyLen_eq_none_iff {n : BitVec 8} : variant n.toNat = none ↔ n ≠ 16 ∧ n ≠ 24 ∧ n ≠ 32 := by
  simp only [variant_none_iff, ne_eq, ← BitVec.toNat_inj]
  rfl

theorem commandError_eq_invalidFormat_iff {i : Instr} {s : State} :
    commandError i s = .invalidFormat ↔ i = .msgStart ∧ (s.msgLen = 0 ∨ s.msgLen.toNat % 16 ≠ 0) := by
  fun_cases commandError i s <;> simp_all [msgLenOk]

theorem commandError_eq_invalidKeySize_iff {i : Instr} {s : State} :
    commandError i s = .invalidKeySize ↔
      (i = .expandKey ∨ i = .msgStart ∧ s.msgLen ≠ 0 ∧ s.msgLen.toNat % 16 = 0) ∧
        s.keyLen ≠ 16 ∧ s.keyLen ≠ 24 ∧ s.keyLen ≠ 32 := by
  rw [← variant_keyLen_eq_none_iff, ← msgLenOk_iff]
  fun_cases commandError i s <;> simp_all

theorem commandError_eq_noKeySchedule_iff {i : Instr} {s : State} :
    commandError i s = .noKeySchedule ↔
      (i = .encState ∨ i = .decState ∨ ∃ r, i = .addRoundKey r) ∧ s.ksValid = false := by
  fun_cases commandError i s <;> simp_all

theorem commandError_ne_illegalCommand (i : Instr) (s : State) : commandError i s ≠ .illegalCommand := by
  fun_cases commandError i s <;> nofun

theorem commandError_eq_badRound_iff {i : Instr} {s : State} :
    commandError i s = .badRound ↔ ∃ r, i = .addRoundKey r ∧ s.ksValid = true ∧ s.nr.toNat < r := by
  fun_cases commandError i s <;> simp_all [rounds]

theorem commandError_eq_noMessage_iff {i : Instr} {s : State} :
    commandError i s = .noMessage ↔ i = .msgBlock ∧ s.msgActive = false := by
  fun_cases commandError i s <;> simp_all

/-- Settles O35: a word that does not decode ends with its own code, and a command with that of its first check that
fails. -/
theorem errorCodesHaveTheirCauses : Obligations.ErrorCodesHaveTheirCauses := by
  intro v s
  cases hd : decode v with
  | error e =>
    refine ⟨_, complete_error hd s, ErrCode.code_le_six _, ?_⟩
    simp [ErrCode.code]
  | ok i =>
    obtain ⟨t, ht, -⟩ := exec_next i s
    refine ⟨t, (complete_ok hd s).trans ht, ?_⟩
    simp only [exec_err ht, Except.ok.injEq]
    exact ⟨ErrCode.code_le_six _, ErrCode.code_inj.trans commandError_eq_invalidFormat_iff,
      ErrCode.code_inj.trans commandError_eq_invalidKeySize_iff,
      ErrCode.code_inj.trans commandError_eq_noKeySchedule_iff,
      iff_of_false (fun h => commandError_ne_illegalCommand i s (ErrCode.code_inj.1 h)) nofun,
      ErrCode.code_inj.trans commandError_eq_badRound_iff, ErrCode.code_inj.trans commandError_eq_noMessage_iff⟩

/-! ## No partial result -/

theorem failedState_of_ne_msgStart {i : Instr} (hi : i ≠ .msgStart) (e : ErrCode) (s : State) :
    failedState i e s = raiseError e s := by
  simp [failedState, hi]

/-- Settles O36: a failure is `raiseError` alone, for MSG_START after the open message is ended. -/
theorem failedCommandsHaveNoPartialResult : Obligations.FailedCommandsHaveNoPartialResult := by
  intro v s t h herr
  cases hd : decode v with
  | error e =>
    rw [complete_error hd] at h
    cases h
    exact ⟨fun _ => rfl, nofun⟩
  | ok i =>
    rw [complete_ok hd] at h
    obtain rfl : t = failedState i (commandError i s) s := exec_eq_failedState h herr
    refine ⟨fun hi => ?_, fun hi => ?_⟩
    · rw [failedState_of_ne_msgStart fun h => hi (h ▸ rfl)]
      rfl
    · cases hi
      rfl

/-! ## Errors are not sticky -/

/-- No command reads ERR, and each overwrites it. -/
theorem exec_with_err (i : Instr) (s : State) (e : BitVec 4) : exec i { s with err := e } = exec i s := by
  cases i <;> rfl

/-- The checks read nothing a failure of the same command writes. -/
theorem commandError_failedState (i : Instr) (e : ErrCode) (s : State) :
    commandError i (failedState i e s) = commandError i s := by
  cases i <;> rfl

theorem failedState_failedState (i : Instr) (e : ErrCode) (s : State) :
    failedState i e (failedState i e s) = failedState i e s := by
  unfold failedState
  split <;> rfl

/-- A command that failed fails again on the state it left. -/
theorem exec_again {i : Instr} {s t : State} (h : exec i s = .next t) (herr : t.err ≠ 0) : exec i t = .next t := by
  obtain ⟨u, hu, -⟩ := exec_next i t
  have ht : t = failedState i (commandError i s) s := exec_eq_failedState h herr
  have hsame : commandError i t = commandError i s := by rw [ht, commandError_failedState]
  have herr' : u.err = t.err := by rw [exec_err hu, exec_err h, hsame]
  rw [hu, exec_eq_failedState hu (herr' ▸ herr), hsame, ht, failedState_failedState]

/-- Settles O37: ERR is written by every completion and read by none, and a failure leaves its own cause and nothing
more to write. -/
theorem errorsAreNotSticky : Obligations.ErrorsAreNotSticky := by
  refine ⟨fun v s e => ?_, fun v s t h herr => ?_⟩
  · cases hd : decode v with
    | error _ =>
      rw [complete_error hd, complete_error hd]
      rfl
    | ok i => rw [complete_ok hd, complete_ok hd, exec_with_err]
  · cases hd : decode v with
    | error _ =>
      rw [complete_error hd] at h ⊢
      cases h
      rfl
    | ok i =>
      rw [complete_ok hd] at h ⊢
      exact exec_again h herr

end Sys2Proof.Machine

/-! # The events of the key schedule (60_exceptions.md R283)

The events of word `i` (`wordEvents`) say what the loop did to the previous word and which word it gave; read from the
finished schedule they follow one another from word `Nk` on. How many there are depends on the index alone. -/

namespace Sys2Proof.Machine

/-- The events of word `w` at index `i`, the previous word being `t`. -/
def wordEvents (nk i : Nat) (t w : Col) : List TraceEvent :=
  let rot := rotWord t
  let sub := subWord rot
  let sum : Col := { sub with b0 := sub.b0 ^^^ rcon (i / nk) }
  if i % nk = 0 then
    [colEvent .ksRot i rot, colEvent .ksSub i sub, colEvent .ksRcon i sum, colEvent .ksWord i w]
  else if nk = 8 ∧ i % nk = 4 then [colEvent .ksSub i (subWord t), colEvent .ksWord i w]
  else [colEvent .ksWord i w]

/-- How many events word `i` has. -/
def wordEventCount (nk i : Nat) : Nat :=
  if i % nk = 0 then 4 else if nk = 8 ∧ i % nk = 4 then 2 else 1

theorem wordEvents_length (nk i : Nat) (t w : Col) : (wordEvents nk i t w).length = wordEventCount nk i := by
  simp only [wordEvents, wordEventCount, apply_ite List.length]
  rfl

/-- The pass for word `i` emits the events of that word, its round constant being that of round `i / nk`
(42_key_schedule.md R163). -/
theorem nextWord_events {nk i : Nat} (hk : 0 < nk) (hi : nk ≤ i) (before : List Col) :
    (nextWord nk i ((i - 1) / nk) before).events =
      wordEvents nk i (before.getD 0 ⟨0, 0, 0, 0⟩) (nextWord nk i ((i - 1) / nk) before).word := by
  unfold nextWord wordEvents
  split
  · next hcore =>
    have hround : (i - 1) / nk + 1 = i / nk := by simpa [hcore] using fired_step hk hi
    rw [hround]
  · split <;> rfl

section
variable {nk nr : Nat} (key : List Byte) (hk : 0 < nk) (hn : nk ≤ 4 * (nr + 1))
include hk hn

/-- The events of KeyExpansion, read from the finished schedule. -/
theorem keyExpansion_events :
    (keyExpansion key nk nr).2 = (List.range (4 * (nr + 1) - nk)).flatMap fun k =>
      wordEvents nk (nk + k) ((keyExpansion key nk nr).1.getD (nk + k - 1) ⟨0, 0, 0, 0⟩)
        ((keyExpansion key nk nr).1.getD (nk + k) ⟨0, 0, 0, 0⟩) := by
  obtain ⟨hlen, -, hlater, hevents⟩ := keyExpansion_spec key hk hn
  refine hevents.trans (List.flatMap_congr fun k hmem => ?_)
  have hrange : k < 4 * (nr + 1) - nk := List.mem_range.1 hmem
  have hlt : nk + k < 4 * (nr + 1) := by omega
  rw [nextWord_events hk (Nat.le_add_right nk k), getD_take_reverse _ _ _ _ (by omega) (by omega),
    List.getD_eq_getElem?_getD (i := nk + k), hlater _ (Nat.le_add_right nk k) hlt]
  rfl

theorem keyExpansion_events_length :
    (keyExpansion key nk nr).2.length =
      ((List.range (4 * (nr + 1) - nk)).map fun k => wordEventCount nk (nk + k)).sum := by
  simp only [keyExpansion_events key hk hn, List.length_flatMap, wordEvents_length]

end

/-- The event counts of the three variants. -/
theorem keyExpansion_event_counts (key : List Byte) {len nk nr : Nat} (hv : variant len = some (nk, nr)) :
    (nr = 10 → (keyExpansion key nk nr).2.length = 70) ∧ (nr = 12 → (keyExpansion key nk nr).2.length = 70) ∧
      (nr = 14 → (keyExpansion key nk nr).2.length = 79) := by
  obtain ⟨-, hk, -, hn, -⟩ := variant_bounds hv
  rw [keyExpansion_events_length key hk hn]
  rcases variant_cases hv with ⟨-, rfl, rfl⟩ | ⟨-, rfl, rfl⟩ | ⟨-, rfl, rfl⟩ <;> decide

/-- Settles O16: each pass of KeyExpansion emits the events of its word, and both commands that expand append all of
them. -/
theorem keyScheduleEventsInOrder : Obligations.KeyScheduleEventsInOrder := by
  refine ⟨fun key nk nr hv => ?_, fun s nk nr hv hne hmod => ?_⟩
  · obtain ⟨-, hk, -, hn, -⟩ := variant_bounds hv
    exact ⟨keyExpansion_events key hk hn, keyExpansion_event_counts key hv⟩
  · exact ⟨_, _, exec_expandKey hv, exec_msgStart (msgLenOk_iff.2 ⟨hne, hmod⟩) hv, rfl, rfl⟩

end Sys2Proof.Machine

/-! # Reset and hazards (70_reset_and_hazards.md R292, R300)

Every register of the map reads 0 in the reset state. An idle core becomes busy at a CMD write alone, and a core whose
command waits faults on every aligned write: no two commands overlap. -/

namespace Sys2Proof.Machine

/-! ## What reset leaves to read -/

@[simp] theorem quadGet_zero (j : Fin 4) : quadGet ⟨0, 0, 0, 0⟩ j = 0 := by
  fin_cases j <;> rfl

/-- Every register's reset value is 0 (70_reset_and_hazards.md R290). -/
theorem readReg_reset (r : Reg) : readReg r State.reset = 0 := by
  cases r with
  | ctrl | cmd | status | keyLen | msgLen | blocksLeft | gfOpnd | gfRes => rfl
  | iv j | din j | dout j | state j | cv j => exact quadGet_zero j
  | key j | rk i => exact Vector.getElem_replicate _

theorem busRead_reset (off : BitVec 9) : busRead off State.reset = 0 := by
  cases hreg : regAt off with
  | none => exact busRead_eq_zero hreg State.reset
  | some r => simpa [busRead, hreg] using readReg_reset r

/-! ## How an idle core becomes busy -/

theorem aligned_iff {z : AccessSize} {off : BitVec 9} :
    aligned z off = true ↔ z = .word ∧ off.extractLsb' 0 2 = 0 := by
  simp [aligned]

theorem driveReset_idle {s : State} (hp : s.pending = none) (high : Bool) : (driveReset high s).pending = none := by
  cases high with
  | false => rfl
  | true => exact hp

/-- The host's action that leaves an idle core busy is its aligned write of CMD. -/
theorem hostAct_begins_only_by_cmd {a : HostAction} {s t : State} (hp : s.pending = none)
    (h : hostAct a s = .next t) (hb : busy t = true) : ∃ v, a = .write .word 0x004 v := by
  have ht : t.pending ≠ none := fun hn => by simp [busy_eq_false.2 hn] at hb
  rcases hostAct_cases h with ⟨-, rfl⟩ | ⟨z, off, -, -, -, -, rfl⟩ | ⟨z, off, -, -, -, -, rfl⟩ |
    ⟨z, off, v, rfl, -, ha, -, rfl⟩ | ⟨-, -, -, rfl⟩ | ⟨-, -, -, rfl⟩ | ⟨high, -, rfl⟩
  · exact absurd hp ht
  · exact absurd hp ht
  · exact absurd hp ht
  · obtain ⟨rfl, hoff⟩ := aligned_iff.1 ha
    obtain rfl : off = 0x004 := by
      by_contra hne
      obtain ⟨hpending, -⟩ := busWrite_pending (regAt_ne_cmd hoff hne) v s
      exact ht (hpending.trans hp)
    exact ⟨v, rfl⟩
  · exact absurd hp ht
  · exact absurd hp ht
  · exact absurd (driveReset_idle hp high) ht

/-- The step that leaves an idle core busy is the host's aligned write of CMD. -/
theorem step_begins_only_by_cmd {s t : State} (hp : s.pending = none) (h : step s = .next t) (hb : busy t = true) :
    ∃ v rest, s.inputs = .write .word 0x004 v :: rest := by
  rw [step_idle hp] at h
  rcases hostTurn_cases h with ⟨-, rfl⟩ | ⟨a, rest, hi, ha⟩
  · simp [busy_eq_false.2 hp] at hb
  · obtain ⟨v, rfl⟩ := hostAct_begins_only_by_cmd (s := { s with inputs := rest }) hp ha hb
    exact ⟨v, rest, hi⟩

/-! ## Writes while BUSY = 1 -/

theorem hostWrite_busy {s : State} {off : BitVec 9} (hr : s.rstN = true) (hb : busy s = true)
    (ha : off.extractLsb' 0 2 = 0) (v : Word) : hostWrite .word off v s = .fault .writeWhileBusy := by
  simp [hostWrite, hr, aligned_word ha, hb]

/-! ## The statements -/

/-- Settles O43: every register reads 0 at reset, a core with nothing from the host stays as it is, and an idle core
begins a command only at a CMD write. -/
theorem resetStateIsIdleAndZero : Obligations.ResetStateIsIdleAndZero :=
  ⟨rfl, busRead_reset, rfl, rfl, rfl, (step_idle rfl).trans (hostTurn_nil rfl),
    fun _ _ hp h hb => step_begins_only_by_cmd hp h hb⟩

/-- Settles O52: the step of a waiting command is the host's turn, and its write meets BUSY = 1. -/
theorem writesWhileBusyFault : Obligations.WritesWhileBusyFault := by
  intro s w v n off rest hr hp ha hi
  rw [step_waiting hp, hostTurn_cons (s := { s with pending := some ⟨w, n⟩ }) hi]
  exact hostWrite_busy (s := { s with pending := some ⟨w, n⟩, inputs := rest }) hr rfl ha v

end Sys2Proof.Machine

/-! # Encoding and decoding (30_encoding.md R100 to R106) -/

namespace Sys2Proof

/-- Settles O1: a well-formed command's word decodes to that command, as the decoder is characterised by encodings. -/
theorem decodeOfEncodeIsTheCommand : Obligations.DecodeOfEncodeIsTheCommand := fun _ hwf =>
  decode_eq_ok_iff.2 ⟨hwf, rfl⟩

/-- Settles O2: a word decodes only as the encoding of a well-formed command. -/
theorem encodeOfDecodeIsTheWord : Obligations.EncodeOfDecodeIsTheWord := fun _ _ hd =>
  have ⟨hwf, hw⟩ := decode_eq_ok_iff.1 hd
  ⟨hwf, hw.symm⟩

/-- Settles O4: each word is the encoding of its command. -/
theorem spelledWordsDecode : Obligations.SpelledWordsDecode := by
  have h (i : Instr) (hwf : i.wf = true) : decode (encode i) = .ok i := decodeOfEncodeIsTheCommand i hwf
  exact ⟨h .nop rfl, h .expandKey rfl, h .encState rfl, h .decState rfl, h .subBytes rfl, h .invSubBytes rfl,
    h .shiftRows rfl, h .invShiftRows rfl, h .mixColumns rfl, h .invMixColumns rfl, h (.addRoundKey 3) rfl,
    h .gfMul rfl, h .msgStart rfl, h .msgBlock rfl⟩

end Sys2Proof

/-! # The store of round keys over every step (10_state.md R36, R42)

RK, NR and KS_VALID change together: two commands store a whole schedule, reset clears all three, and nothing else
reaches them (`SameSchedule`). No command is in progress while `rst_n` is low, since only driving it low begins that and
no access is answered then. -/

namespace Sys2Proof.Machine

/-! ## The schedule -/

/-- RK, its rounds and its validity are as they were. -/
structure SameSchedule (s t : State) : Prop where
  ksValid : t.ksValid = s.ksValid
  nr : t.nr = s.nr
  rk : t.rk = s.rk

theorem ScheduleInv.of_same {s t : State} (hs : ScheduleInv s) (hst : SameSchedule s t) : ScheduleInv t := by
  unfold ScheduleInv
  rw [hst.ksValid, hst.nr, hst.rk]
  exact hs

theorem scheduleInv_of_zero {t : State} (hks : t.ksValid = false) (hrk : t.rk = Vector.replicate 60 0) :
    ScheduleInv t :=
  ⟨fun h => by simp [hks] at h, fun _ => hrk⟩

theorem expandAndStore_scheduleInv {s : State} {nk nr : Nat} (hv : variant s.keyLen.toNat = some (nk, nr)) :
    ScheduleInv (expandAndStore nk nr s) :=
  ⟨fun _ => ⟨s.key, s.keyLen.toNat, nk, nr, hv, rfl, rfl⟩, nofun⟩

theorem reset_scheduleInv : ScheduleInv State.reset := scheduleInv_of_zero rfl rfl

theorem completion_keeps_scheduleInv {s t : State} (h : Completion s t) (hs : ScheduleInv s) : ScheduleInv t := by
  cases h with
  | failed | failedStart | nop | gfMul | singleStep | wholeBlock | passed => exact hs.of_same ⟨rfl, rfl, rfl⟩
  | expanded nk nr hv => exact (expandAndStore_scheduleInv hv).of_same ⟨rfl, rfl, rfl⟩
  | opened nk nr hlen hv => exact (expandAndStore_scheduleInv hv).of_same ⟨rfl, rfl, rfl⟩

theorem busWrite_sameSchedule (off : BitVec 9) (v : Word) (s : State) : SameSchedule s (busWrite off v s) := by
  obtain ⟨hrk, hks, hnr, -⟩ := busWrite_frame off v s
  exact ⟨hks, hnr, hrk⟩

theorem driveReset_keeps_scheduleInv {s : State} (high : Bool) (hs : ScheduleInv s) :
    ScheduleInv (driveReset high s) := by
  cases high with
  | false => exact scheduleInv_of_zero rfl rfl
  | true => exact hs

theorem hostAct_keeps_scheduleInv {a : HostAction} {s t : State} (h : hostAct a s = .next t) (hs : ScheduleInv s) :
    ScheduleInv t := by
  rcases hostAct_cases h with ⟨-, rfl⟩ | ⟨z, off, -, -, -, -, rfl⟩ | ⟨z, off, -, -, -, -, rfl⟩ |
    ⟨z, off, v, -, -, -, -, rfl⟩ | ⟨-, -, -, rfl⟩ | ⟨-, -, -, rfl⟩ | ⟨high, -, rfl⟩
  · exact hs
  · exact hs
  · exact hs
  · exact hs.of_same (busWrite_sameSchedule off v s)
  · exact hs
  · exact hs
  · exact driveReset_keeps_scheduleInv high hs

/-! ## The reset input -/

theorem resetInv_of_idle {t : State} (hp : t.pending = none) : ResetInv t := fun _ => hp

theorem resetInv_of_high {t : State} (hr : t.rstN = true) : ResetInv t := fun h => by simp [hr] at h

/-- A command in progress shows that `rst_n` is high. -/
theorem ResetInv.rstN_of_pending {s : State} {p : Pending} (hs : ResetInv s) (hp : s.pending = some p) :
    s.rstN = true := by
  by_contra hlow
  have hnone : s.pending = none := hs (by simpa using hlow)
  simp [hnone] at hp

theorem busWrite_rstN (off : BitVec 9) (v : Word) (s : State) : (busWrite off v s).rstN = s.rstN := by
  obtain ⟨-, -, -, -, -, -, -, -, -, -, -, -, -, hrst, -⟩ := busWrite_frame off v s
  exact hrst

theorem driveReset_resetInv (high : Bool) (s : State) : ResetInv (driveReset high s) := by
  cases high with
  | false => exact resetInv_of_idle rfl
  | true => exact resetInv_of_high rfl

theorem hostAct_keeps_resetInv {a : HostAction} {s t : State} (h : hostAct a s = .next t) (hs : ResetInv s) :
    ResetInv t := by
  rcases hostAct_cases h with ⟨-, rfl⟩ | ⟨z, off, -, hr, -, -, rfl⟩ | ⟨z, off, -, hr, -, -, rfl⟩ |
    ⟨z, off, v, -, hr, -, -, rfl⟩ | ⟨-, hr, -, rfl⟩ | ⟨-, -, -, rfl⟩ | ⟨high, -, rfl⟩
  · exact hs
  · exact resetInv_of_high hr
  · exact resetInv_of_high hr
  · exact resetInv_of_high ((busWrite_rstN off v s).trans hr)
  · exact resetInv_of_high hr
  · exact hs
  · exact driveReset_resetInv high s

/-! ## Both over every step -/

theorem hostTurn_keeps_schedule_and_reset {s t : State} (h : hostTurn s = .next t) (hs : ScheduleInv s)
    (hr : ResetInv s) : ScheduleInv t ∧ ResetInv t := by
  rcases hostTurn_cases h with ⟨-, rfl⟩ | ⟨a, rest, -, ha⟩
  · exact ⟨hs, hr⟩
  · exact ⟨hostAct_keeps_scheduleInv ha hs, hostAct_keeps_resetInv ha hr⟩

/-- Settles O41: a completion leaves a whole schedule and no command in progress, and a turn of the host keeps both
invariants. -/
theorem stepsKeepTheScheduleWhole : Obligations.StepsKeepTheScheduleWhole := by
  intro s t hs hr h
  rcases step_cases s with ⟨w, -, hw⟩ | ⟨w, n, hp, hw⟩ | ⟨-, hw⟩ <;> rw [hw] at h
  · obtain ⟨u, hu, hframe⟩ := complete_next w s
    obtain rfl : u = t := by simpa [hu] using h
    exact ⟨completion_keeps_scheduleInv (complete_cases h) hs, resetInv_of_idle hframe.pending⟩
  · exact hostTurn_keeps_schedule_and_reset h hs (resetInv_of_high (hr.rstN_of_pending hp))
  · exact hostTurn_keeps_schedule_and_reset h hs hr

/-- Settles O42: with everything 0 there is no schedule, no message and no command in progress. -/
theorem resetMeetsTheInvariants : Obligations.ResetMeetsTheInvariants :=
  ⟨reset_statusInv, reset_scheduleInv, resetInv_of_idle rfl⟩

end Sys2Proof.Machine

/-! # Runs, and hosts that keep the busy protocol (70_reset_and_hazards.md R296 to R300)

Whatever the core does while a host keeps the protocol, the host keeps it from the core's next state on: its phase is
what the state shows, and a command's completion only allows it more. -/

namespace Sys2Proof.Machine

/-! ## Runs -/

theorem run_zero (s : State) : Host.Core.run core 0 s = .next s := rfl

/-- A run goes on from the state its first step answers. -/
theorem run_succ {s t : State} (h : step s = .next t) (k : Nat) :
    Host.Core.run core (k + 1) s = Host.Core.run core k t := by
  have hcore : core.step s = .next t := h
  simp only [Host.Core.run, hcore]

/-- An invariant under which every step answers a next state that has it again holds along every run. -/
theorem run_of_invariant {P : State → Prop} (hstep : ∀ s, P s → ∃ t, step s = .next t ∧ P t) {s : State} (hs : P s)
    (k : Nat) : ∃ t, Host.Core.run core k s = .next t ∧ P t := by
  induction k generalizing s with
  | zero => exact ⟨s, run_zero s, hs⟩
  | succ k ih =>
    obtain ⟨u, hu, hPu⟩ := hstep s hs
    obtain ⟨t, ht, hPt⟩ := ih hPu
    exact ⟨t, (run_succ hu k).trans ht, hPt⟩

/-! ## Phases -/

theorem phaseOf_eq_inReset_iff {s : State} : phaseOf s = .inReset ↔ s.rstN = false := by
  cases hr : s.rstN <;> cases hb : busy s <;> simp [phaseOf, hr, hb]

theorem phaseOf_eq_issued_iff {s : State} : phaseOf s = .issued ↔ s.rstN = true ∧ busy s = true := by
  cases hr : s.rstN <;> cases hb : busy s <;> simp [phaseOf, hr, hb]

theorem phaseOf_eq_ready_iff {s : State} : phaseOf s = .ready ↔ s.rstN = true ∧ busy s = false := by
  cases hr : s.rstN <;> cases hb : busy s <;> simp [phaseOf, hr, hb]

/-- The phase is what the reset input and BUSY show. -/
theorem phaseOf_congr {s t : State} (hr : t.rstN = s.rstN) (hb : busy t = busy s) : phaseOf t = phaseOf s := by
  simp only [phaseOf, hr, hb]

theorem disciplined_cons {p : Phase} {a : HostAction} {rest : List HostAction}
    (h : Disciplined p (a :: rest) = true) : ∃ p', Phase.after p a = some p' ∧ Disciplined p' rest = true := by
  unfold Disciplined at h
  cases hp : Phase.after p a with
  | none => simp [hp] at h
  | some p' => exact ⟨p', rfl, by simpa [hp] using h⟩

theorem disciplined_cons_of_after {p p' : Phase} {a : HostAction} {rest : List HostAction}
    (hp : Phase.after p a = some p') (h : Disciplined p' rest = true) : Disciplined p (a :: rest) = true := by
  simp only [Disciplined, hp, h]

/-- What a host may do while its command is unpolled it may do with none. -/
theorem disciplined_ready_of_issued {l : List HostAction} (h : Disciplined .issued l = true) :
    Disciplined .ready l = true := by
  induction l with
  | nil => rfl
  | cons a rest ih =>
    obtain ⟨p', hp, hrest⟩ := disciplined_cons h
    cases a with
    | idle => cases hp; exact disciplined_cons_of_after rfl (ih hrest)
    | read z off =>
      simp only [Phase.after, Option.ite_none_right_eq_some, Bool.and_eq_true] at hp
      obtain ⟨⟨ha, -⟩, hp⟩ := hp
      cases hp
      exact disciplined_cons_of_after (by simp [Phase.after, ha]) (ih hrest)
    | write z off v => cases hp
    | poll => cases hp; exact disciplined_cons_of_after rfl hrest
    | driveRst high =>
      cases high with
      | false => cases hp; exact disciplined_cons_of_after rfl hrest
      | true => cases hp; exact disciplined_cons_of_after rfl (ih hrest)

/-! ## The host's turn -/

/-- The host keeps the protocol from the state's own phase on. -/
def KeepsProtocol (s : State) : Prop := ResetInv s ∧ Disciplined (phaseOf s) s.inputs = true

theorem phaseOf_busWrite {off : BitVec 9} {s : State} (hr : s.rstN = true) (hb : busy s = false) (v : Word) :
    phaseOf (busWrite off v s) = if regAt off = some .cmd then .issued else .ready := by
  have hrst : (busWrite off v s).rstN = true := (busWrite_rstN off v s).trans hr
  split
  · next hcmd => exact phaseOf_eq_issued_iff.2 ⟨hrst, by simp [busWrite, hcmd, writeReg, busy]⟩
  · next hcmd =>
    obtain ⟨hpending, -⟩ := busWrite_pending hcmd v s
    exact phaseOf_eq_ready_iff.2 ⟨hrst, by rw [busy, hpending]; exact hb⟩

theorem busWrite_inputs (off : BitVec 9) (v : Word) (s : State) : (busWrite off v s).inputs = s.inputs := by
  obtain ⟨-, -, -, -, -, -, -, -, -, -, -, -, -, -, -, hinputs, -⟩ := busWrite_frame off v s
  exact hinputs

/-- The action is answered, and the host's turns to come keep the protocol from the next state's phase on. -/
def AnsweredInProtocol (a : HostAction) (s : State) : Prop :=
  ∃ t, hostAct a s = .next t ∧ Disciplined (phaseOf t) t.inputs = true

theorem AnsweredInProtocol.of_phase {a : HostAction} {s t : State} {p : Phase} (h : hostAct a s = .next t)
    (hp : phaseOf t = p) (hi : t.inputs = s.inputs) (hrest : Disciplined p s.inputs = true) :
    AnsweredInProtocol a s :=
  ⟨t, h, by rw [hp, hi]; exact hrest⟩

theorem hostPoll_idle {s : State} (hr : s.rstN = true) (hb : busy s = false) : hostPoll s = .next s := by
  simp [hostPoll, hr, hb]

/-- A poll that finds BUSY = 1 is the host's next turn again (30_encoding.md R111). -/
theorem hostPoll_busy {s : State} (hr : s.rstN = true) (hb : busy s = true) :
    hostPoll s = .next { s with inputs := .poll :: s.inputs } := by
  simp [hostPoll, hr, hb]

section
variable {a : HostAction} {s : State} {p : Phase}

theorem ready_answered (hs : phaseOf s = .ready) (ha : Phase.after .ready a = some p)
    (hrest : Disciplined p s.inputs = true) : AnsweredInProtocol a s := by
  obtain ⟨hr, hb⟩ := phaseOf_eq_ready_iff.1 hs
  cases a with
  | idle => cases ha; exact .of_phase rfl hs rfl hrest
  | read z off =>
    obtain ⟨hal, hp⟩ := Option.ite_none_right_eq_some.1 ha
    cases hp
    have hread : hostRead z off s = .next (record (busRead off s) s) := by simp [hostRead, hr, hal, hb]
    exact .of_phase hread hs rfl hrest
  | write z off v =>
    obtain ⟨hal, hp⟩ := Option.ite_none_right_eq_some.1 ha
    cases hp
    have hwrite : hostWrite z off v s = .next (busWrite off v s) := by simp [hostWrite, hr, hal, hb]
    exact .of_phase hwrite (phaseOf_busWrite hr hb v) (busWrite_inputs off v s) hrest
  | poll =>
    cases ha
    exact .of_phase (hostPoll_idle hr hb) hs rfl hrest
  | driveRst high =>
    cases high with
    | false => cases ha; exact .of_phase rfl rfl rfl hrest
    | true => cases ha; exact .of_phase rfl (phaseOf_eq_ready_iff.2 ⟨rfl, hb⟩) rfl hrest

theorem issued_answered (hs : phaseOf s = .issued) (ha : Phase.after .issued a = some p)
    (hrest : Disciplined p s.inputs = true) : AnsweredInProtocol a s := by
  obtain ⟨hr, hb⟩ := phaseOf_eq_issued_iff.1 hs
  cases a with
  | idle => cases ha; exact .of_phase rfl hs rfl hrest
  | read z off =>
    obtain ⟨hstatus, hp⟩ := Option.ite_none_right_eq_some.1 ha
    cases hp
    have hal : aligned z off = true := (Bool.and_eq_true_iff.1 hstatus).1
    have hread : hostRead z off s =
        .next (record (busReadBusy off s (Config.freeWord s.draws)) { s with draws := s.draws + 1 }) := by
      simp [hostRead, hr, hal, hb]
    exact .of_phase hread hs rfl hrest
  | write z off v => cases ha
  | poll =>
    have hagain : phaseOf { s with inputs := .poll :: s.inputs } = .issued := hs
    exact ⟨_, hostPoll_busy hr hb, by rw [hagain]; exact disciplined_cons_of_after ha hrest⟩
  | driveRst high =>
    cases high with
    | false => cases ha; exact .of_phase rfl rfl rfl hrest
    | true => cases ha; exact .of_phase rfl (phaseOf_eq_issued_iff.2 ⟨rfl, hb⟩) rfl hrest

theorem inReset_answered (hs : phaseOf s = .inReset) (hidle : s.pending = none)
    (ha : Phase.after .inReset a = some p) (hrest : Disciplined p s.inputs = true) : AnsweredInProtocol a s := by
  cases a with
  | idle => cases ha; exact .of_phase rfl hs rfl hrest
  | read z off => cases ha
  | write z off v => cases ha
  | poll => cases ha
  | driveRst high =>
    cases high with
    | false => cases ha; exact .of_phase rfl rfl rfl hrest
    | true => cases ha; exact .of_phase rfl (phaseOf_eq_ready_iff.2 ⟨rfl, busy_eq_false.2 hidle⟩) rfl hrest

/-- An action that the protocol allows in the state's phase is answered. -/
theorem allowed_answered (hs : ResetInv s) (ha : Phase.after (phaseOf s) a = some p)
    (hrest : Disciplined p s.inputs = true) : AnsweredInProtocol a s := by
  cases hphase : phaseOf s with
  | ready => exact ready_answered hphase (hphase ▸ ha) hrest
  | issued => exact issued_answered hphase (hphase ▸ ha) hrest
  | inReset => exact inReset_answered hphase (hs (phaseOf_eq_inReset_iff.1 hphase)) (hphase ▸ ha) hrest

end

theorem hostTurn_keepsProtocol {s : State} (hs : KeepsProtocol s) : ∃ t, hostTurn s = .next t ∧ KeepsProtocol t := by
  obtain ⟨hr, hd⟩ := hs
  cases hi : s.inputs with
  | nil => exact ⟨s, hostTurn_nil hi, hr, hd⟩
  | cons a rest =>
    rw [hi] at hd
    obtain ⟨p, hp, hrest⟩ := disciplined_cons hd
    obtain ⟨t, ht, hdt⟩ := allowed_answered (s := { s with inputs := rest }) hr hp hrest
    exact ⟨t, (hostTurn_cons hi).trans ht, hostAct_keeps_resetInv ht hr, hdt⟩

/-! ## Steps -/

/-- After a completion the host may do what it was about to do while the command was unpolled. -/
theorem complete_keepsProtocol {s : State} {w : Word} {n : Nat} (hp : s.pending = some ⟨w, n⟩)
    (hs : KeepsProtocol s) : ∃ t, complete w s = .next t ∧ KeepsProtocol t := by
  obtain ⟨hr, hd⟩ := hs
  obtain ⟨t, ht, hframe⟩ := complete_next w s
  have hhigh : s.rstN = true := hr.rstN_of_pending hp
  have hready : phaseOf t = .ready := phaseOf_eq_ready_iff.2 ⟨hframe.rstN.trans hhigh, busy_eq_false.2 hframe.pending⟩
  have hissued : phaseOf s = .issued := phaseOf_eq_issued_iff.2 ⟨hhigh, busy_eq_true.2 ⟨_, hp⟩⟩
  refine ⟨t, ht, resetInv_of_idle hframe.pending, ?_⟩
  rw [hready, hframe.inputs]
  exact disciplined_ready_of_issued (hissued ▸ hd)

theorem step_keepsProtocol {s : State} (hs : KeepsProtocol s) : ∃ t, step s = .next t ∧ KeepsProtocol t := by
  rcases step_cases s with ⟨w, hp, hw⟩ | ⟨w, n, hp, hw⟩ | ⟨-, hw⟩ <;> rw [hw]
  · exact complete_keepsProtocol hp hs
  · obtain ⟨hr, hd⟩ := hs
    have hphase : phaseOf { s with pending := some ⟨w, n⟩ } = phaseOf s := phaseOf_congr rfl (by simp [busy, hp])
    exact hostTurn_keepsProtocol ⟨resetInv_of_high (hr.rstN_of_pending hp), hphase ▸ hd⟩
  · exact hostTurn_keepsProtocol hs

/-- Settles O57: keeping the protocol is an invariant under which every step answers a next state. -/
theorem disciplinedHostsNeverFault : Obligations.DisciplinedHostsNeverFault := fun _ k hr hd =>
  run_of_invariant (fun _ => step_keepsProtocol) ⟨hr, hd⟩ k

end Sys2Proof.Machine

/-! # Turns (70_reset_and_hazards.md R290 to R299)

Whose turn a step is, what the host's turn does while `rst_n` is low or a command waits, and what a command's
completion is once its wait has passed: a completion reads neither the wait, nor the host's turns to come, nor the
working block (`exec_sameShown`). -/

namespace Sys2Proof.Machine

/-! ## Whose turn it is -/

/-- Settles O6: the three kinds of turn, with the completion of a word that decodes. -/
theorem stepCompletesTheDecodedCommand : Obligations.StepCompletesTheDecodedCommand :=
  ⟨fun s _ _ hp hd => (step_due hp).trans (complete_ok hd s), fun _ _ _ hp => step_waiting hp, fun _ hp => step_idle hp⟩

/-- With no command due the host takes its next action, a command in progress still waiting or not. -/
theorem step_host {s : State} {a : HostAction} {rest : List HostAction} (hp : ∀ v, s.pending ≠ some ⟨v, 0⟩)
    (hi : s.inputs = a :: rest) : ∃ p, step s = hostAct a { s with pending := p, inputs := rest } := by
  rcases step_cases s with ⟨w, hdue, -⟩ | ⟨w, n, -, hw⟩ | ⟨hidle, hw⟩
  · exact absurd hdue (hp w)
  · exact ⟨some ⟨w, n⟩, by rw [hw, hostTurn_cons (s := { s with pending := some ⟨w, n⟩ }) hi]⟩
  · exact ⟨none, by rw [hw, hostTurn_cons hi, ← hidle]⟩

/-! ## The reset input -/

/-- Settles O44: the reset is the host's action, which reads only what is outside the core. -/
theorem pinResetClearsTheCore : Obligations.PinResetClearsTheCore := by
  intro s rest hp hi
  obtain ⟨p, hstep⟩ := step_host hp hi
  exact ⟨_, _, hstep⟩

/-- Whatever the access, the reset input is looked at first (70_reset_and_hazards.md R291). -/
theorem hostAct_inReset {a : HostAction} {s : State} (hr : s.rstN = false)
    (ha : (∃ z off, a = .read z off) ∨ (∃ z off v, a = .write z off v) ∨ a = .poll) :
    hostAct a s = .fault .accessDuringReset := by
  rcases ha with ⟨z, off, rfl⟩ | ⟨z, off, v, rfl⟩ | rfl
  · simp [hostAct, hostRead, hr]
  · simp [hostAct, hostWrite, hr]
  · simp [hostAct, hostPoll, hr]

/-- Settles O45: each access looks at `rst_n` first, and driving it high writes nothing else. -/
theorem accessesDuringResetFault : Obligations.AccessesDuringResetFault := by
  refine ⟨fun s a rest hr hp hi ha => ?_, fun s rest hr hp hi => ?_⟩
  · rw [step_idle hp, hostTurn_cons hi]
    exact hostAct_inReset hr ha
  · rw [step_idle hp, hostTurn_cons hi]
    rfl

/-! ## Accesses that are not aligned, and reads while BUSY = 1 -/

theorem aligned_eq_false {z : AccessSize} {off : BitVec 9} (h : z ≠ .word ∨ off.extractLsb' 0 2 ≠ 0) :
    aligned z off = false := by
  rw [← Bool.not_eq_true, aligned_iff, not_and_or]
  exact h

/-- Settles O48: with `rst_n` high the size and the offset are what an access is checked for first. -/
theorem accessesMustBeAlignedWords : Obligations.AccessesMustBeAlignedWords := by
  intro s z off v rest hr hp hbad hi
  have hal : aligned z off = false := aligned_eq_false hbad
  rcases hi with hi | hi
  · obtain ⟨p, hstep⟩ := step_host hp hi
    rw [hstep]
    simp [hostAct, hostRead, hr, hal]
  · obtain ⟨p, hstep⟩ := step_host hp hi
    rw [hstep]
    simp [hostAct, hostWrite, hr, hal]

/-- A read while a command waits records what the bus gives with a fresh free value. -/
theorem step_read_waiting {s : State} {w : Word} {n : Nat} {off : BitVec 9} {rest : List HostAction}
    (hr : s.rstN = true) (hp : s.pending = some ⟨w, n + 1⟩) (ha : off.extractLsb' 0 2 = 0)
    (hi : s.inputs = .read .word off :: rest) :
    step s = .next (record (busReadBusy off { s with pending := some ⟨w, n⟩ } (Config.freeWord s.draws))
      { s with pending := some ⟨w, n⟩, inputs := rest, draws := s.draws + 1 }) := by
  rw [step_waiting hp, hostTurn_cons (s := { s with pending := some ⟨w, n⟩ }) hi]
  simp [hostAct, hostRead, hr, aligned_word ha, busy, busReadBusy, statusWordBusy]

/-- What STATUS reads as while BUSY = 1 (70_reset_and_hazards.md R298). -/
theorem statusWordBusy_fields {s : State} (hb : busy s = true) (free : Word) :
    (statusWordBusy s free).getLsbD 0 = true ∧ (statusWordBusy s free).extractLsb' 24 8 = s.lastOp ∧
      (statusWordBusy s free).extractLsb' 1 23 = free.extractLsb' 1 23 := by
  unfold statusWordBusy
  rw [hb]
  refine ⟨by rw [BitVec.getLsbD_append]; rfl, ?_, ?_⟩
  · ext i hi
    simp [BitVec.getElem_extractLsb']
    grind
  · ext i hi
    simp [BitVec.getElem_extractLsb']
    grind

/-- Settles O51: the register at the offset is STATUS or it is not. -/
theorem readsWhileBusyAreFree : Obligations.ReadsWhileBusyAreFree := by
  intro s w n off rest hr hp ha hi
  refine ⟨_, step_read_waiting hr hp ha hi, ?_, fun hne => if_neg fun hreg => ?_⟩
  · rintro rfl
    exact statusWordBusy_fields (s := { s with pending := some ⟨w, n⟩ }) rfl _
  · have hstatus : (0x008 : BitVec 9) = off := offset_of_regAt ha hreg
    exact hne hstatus.symm

/-! ## What a turn does not read -/

/-- A state with the working block and the host's turns to come as `φ` and `ψ` show them. -/
def shown (φ : Block → Block) (ψ : List HostAction → List HostAction) (t : State) : State :=
  { t with work := φ t.work, inputs := ψ t.inputs }

/-- Two outcomes are the same but for what `φ` and `ψ` hide. -/
def SameShown (φ : Block → Block) (ψ : List HostAction → List HostAction)
    (o o' : Host.Outcome State Fault Refusal) : Prop := mapNext (shown φ ψ) o' = mapNext (shown φ ψ) o

section
variable {φ : Block → Block} {ψ : List HostAction → List HostAction} {o o' p p' : Host.Outcome State Fault Refusal}

theorem SameShown.next {t t' : State} (hw : φ t'.work = φ t.work) (hi : ψ t'.inputs = ψ t.inputs)
    (hrest : { t' with work := t.work, inputs := t.inputs } = t) : SameShown φ ψ (.next t) (.next t') := by
  have hshown : shown φ ψ t' = shown φ ψ { t' with work := t.work, inputs := t.inputs } := by
    simp only [shown, hw, hi]
  rw [SameShown, mapNext, mapNext, hshown, hrest]

theorem SameShown.fault (e : Fault) : SameShown φ ψ (.fault e) (.fault e) := rfl

theorem SameShown.ite {c : Prop} [Decidable c] (ho : SameShown φ ψ o o') (hp : SameShown φ ψ p p') :
    SameShown φ ψ (if c then o else p) (if c then o' else p') := by
  split
  · exact ho
  · exact hp

/-- `s` with another working block, another command in progress and other turns of the host to come. -/
def withHidden (b : Block) (q : Option Pending) (l : List HostAction) (s : State) : State :=
  { s with work := b, pending := q, inputs := l }

/-- No command reads the working block, the command in progress or the host's turns to come. -/
theorem exec_sameShown (i : Instr) {s : State} {b : Block} {l : List HostAction} (q : Option Pending)
    (hb : φ b = φ s.work) (hl : ψ l = ψ s.inputs) : SameShown φ ψ (exec i s) (exec i (withHidden b q l s)) := by
  cases i with
  | nop | gfMul => exact .next hb hl rfl
  | subBytes | invSubBytes | shiftRows | invShiftRows | mixColumns | invMixColumns => exact .next hb hl rfl
  | encState | decState => exact .ite (.next hb hl rfl) (.next rfl hl rfl)
  | addRoundKey r => exact .ite (.next hb hl rfl) (.ite (.next hb hl rfl) (.next hb hl rfl))
  | msgBlock => exact .ite (.next hb hl rfl) (.next rfl hl rfl)
  | expandKey =>
    cases hv : variant s.keyLen.toNat with
    | none =>
      rw [exec_expandKey_badKey hv, exec_expandKey_badKey (s := withHidden b q l s) hv]
      exact .next hb hl rfl
    | some v =>
      rw [exec_expandKey hv, exec_expandKey (s := withHidden b q l s) hv]
      exact .next hb hl rfl
  | msgStart =>
    refine .ite (.next hb hl rfl) ?_
    cases hv : variant s.keyLen.toNat with
    | none => rw [withHidden, hv]; exact .next hb hl rfl
    | some v => rw [withHidden, hv]; exact .next hb hl rfl

theorem complete_sameShown (w : Word) {s : State} {b : Block} {l : List HostAction} (q : Option Pending)
    (hb : φ b = φ s.work) (hl : ψ l = ψ s.inputs) :
    SameShown φ ψ (complete w s) (complete w (withHidden b q l s)) := by
  cases hd : decode w with
  | ok i =>
    rw [complete_ok hd, complete_ok hd]
    exact exec_sameShown i q hb hl
  | error e =>
    rw [complete_error hd, complete_error hd]
    exact .next hb hl rfl

end

/-! ## The working block -/

/-- `s` with another working block. -/
def withWork (b : Block) (s : State) : State := { s with work := b }

/-- The outcomes are the same but for the working block. -/
abbrev SameButWork : Host.Outcome State Fault Refusal → Host.Outcome State Fault Refusal → Prop :=
  SameShown (fun _ => zeroBlock) id

theorem busRead_withWork (off : BitVec 9) (s : State) (b : Block) : busRead off (withWork b s) = busRead off s := by
  unfold busRead
  split
  · next r _ => cases r <;> rfl
  · rfl

theorem busWrite_withWork (off : BitVec 9) (v : Word) (s : State) (b : Block) :
    busWrite off v (withWork b s) = withWork b (busWrite off v s) := by
  unfold busWrite
  split
  · next r _ => cases r <;> rfl
  · rfl

theorem hostAct_sameButWork (a : HostAction) (s : State) (b : Block) :
    SameButWork (hostAct a s) (hostAct a (withWork b s)) := by
  cases a with
  | idle => exact .next rfl rfl rfl
  | read z off =>
    refine .ite (.fault _) (.ite (.fault _) (.ite (.next rfl rfl rfl) ?_))
    rw [busRead_withWork]
    exact .next rfl rfl rfl
  | write z off v =>
    refine .ite (.fault _) (.ite (.fault _) (.ite (.fault _) ?_))
    rw [busWrite_withWork]
    exact .next rfl rfl rfl
  | poll => exact .ite (.fault _) (.ite (.next rfl rfl rfl) (.next rfl rfl rfl))
  | driveRst high =>
    cases high with
    | false => exact .next rfl rfl rfl
    | true => exact .next rfl rfl rfl

theorem hostTurn_sameButWork (s : State) (b : Block) : SameButWork (hostTurn s) (hostTurn (withWork b s)) := by
  cases hi : s.inputs with
  | nil =>
    rw [hostTurn_nil hi, hostTurn_nil (s := withWork b s) hi]
    exact .next rfl rfl rfl
  | cons a rest =>
    rw [hostTurn_cons hi, hostTurn_cons (s := withWork b s) hi]
    exact hostAct_sameButWork a { s with inputs := rest } b

theorem step_sameButWork (s : State) (b : Block) : SameButWork (step s) (step (withWork b s)) := by
  rcases hp : s.pending with _ | ⟨w, _ | n⟩
  · rw [step_idle hp, step_idle (s := withWork b s) hp]
    exact hostTurn_sameButWork s b
  · rw [step_due hp, step_due (s := withWork b s) hp]
    exact complete_sameShown w s.pending rfl rfl
  · rw [step_waiting hp, step_waiting (s := withWork b s) hp]
    exact hostTurn_sameButWork { s with pending := some ⟨w, n⟩ } b

/-- Settles O60: every turn, of the engine or of the host, is the same but for the working block. -/
theorem workingBlockIsNeverRead : Obligations.WorkingBlockIsNeverRead := step_sameButWork

/-! ## A command's way to its completion -/

/-- `s` with other turns of the host to come. -/
def withInputs (l : List HostAction) (s : State) : State := { s with inputs := l }

/-- `s` with another command in progress and other turns of the host to come. -/
def withTurns (q : Option Pending) (l : List HostAction) (s : State) : State := { s with pending := q, inputs := l }

theorem withInputs_self {s : State} {l : List HostAction} (h : s.inputs = l) : withInputs l s = s := by
  rw [withInputs, ← h]

/-- A completion is the same whatever the host has still to do. -/
theorem complete_withTurns {w : Word} {s t : State} (h : complete w s = .next t) (q : Option Pending)
    (l : List HostAction) : complete w (withTurns q l s) = .next (withInputs l t) := by
  obtain ⟨u, hu, hframe⟩ := complete_next w (withTurns q l s)
  have hsame : SameShown id (fun _ => []) (complete w s) (complete w (withTurns q l s)) :=
    complete_sameShown w q rfl rfl
  rw [h, hu] at hsame
  have hshown : shown id (fun _ => []) u = shown id (fun _ => []) t := Host.Outcome.next.inj hsame
  have hrestored : withInputs l (shown id (fun _ => []) u) = withInputs l (shown id (fun _ => []) t) :=
    congrArg (withInputs l) hshown
  have hinputs : u.inputs = l := hframe.inputs
  calc complete w (withTurns q l s) = .next u := hu
    _ = .next (withInputs l u) := by rw [withInputs_self hinputs]
    _ = .next (withInputs l t) := congrArg Host.Outcome.next hrestored

theorem run_add {s t : State} {m : Nat} (h : Host.Core.run core m s = .next t) (n : Nat) :
    Host.Core.run core (m + n) s = Host.Core.run core n t := by
  induction m generalizing s with
  | zero =>
    cases h
    rw [Nat.zero_add]
  | succ m ih =>
    obtain ⟨u, hu⟩ : ∃ u, step s = .next u := by
      cases hs : step s with
      | next u => exact ⟨u, rfl⟩
      | fault e =>
        have hcore : core.step s = .fault e := hs
        simp [Host.Core.run, hcore] at h
      | refused r =>
        have hcore : core.step s = .refused r := hs
        simp [Host.Core.run, hcore] at h
    rw [Nat.add_right_comm, run_succ hu]
    exact ih ((run_succ hu m).symm.trans h)

theorem run_one {s t : State} (h : step s = .next t) : Host.Core.run core 1 s = .next t := run_succ h 0

/-- While a command is in progress, a host with the turns `l` to come changes nothing but those, and then has turns
with `Q` to come. -/
def OnlyWaits (Q : List HostAction → Prop) (l : List HostAction) : Prop :=
  ∃ l', Q l' ∧ ∀ s : State, s.rstN = true → busy s = true → s.inputs = l → hostTurn s = .next (withInputs l' s)

/-- A host that goes on waiting lets the command in progress become due. -/
theorem run_until_due {Q : List HostAction → Prop} (hQ : ∀ l, Q l → OnlyWaits Q l) {s : State} {w : Word} {n : Nat}
    (hr : s.rstN = true) (hp : s.pending = some ⟨w, n⟩) (hi : Q s.inputs) :
    ∃ l, Q l ∧ Host.Core.run core n s = .next (withTurns (some ⟨w, 0⟩) l s) := by
  induction n generalizing s with
  | zero => exact ⟨s.inputs, hi, by rw [run_zero, withTurns, ← hp]⟩
  | succ n ih =>
    obtain ⟨l', hl', hturn⟩ := hQ s.inputs hi
    have hstep : step s = .next (withTurns (some ⟨w, n⟩) l' s) := by
      rw [step_waiting hp]
      exact hturn { s with pending := some ⟨w, n⟩ } hr rfl rfl
    obtain ⟨l, hl, hrun⟩ := ih (s := withTurns (some ⟨w, n⟩) l' s) hr rfl hl'
    exact ⟨l, hl, (run_succ hstep n).trans hrun⟩

/-- One step more is the command's completion, on the state it was issued in. -/
theorem run_completes {Q : List HostAction → Prop} (hQ : ∀ l, Q l → OnlyWaits Q l) {s u : State} {w : Word} {n : Nat}
    (hr : s.rstN = true) (hp : s.pending = some ⟨w, n⟩) (hi : Q s.inputs) (hu : complete w s = .next u) :
    ∃ l, Q l ∧ Host.Core.run core (n + 1) s = .next (withInputs l u) := by
  obtain ⟨l, hl, hrun⟩ := run_until_due hQ hr hp hi
  have hstep : step (withTurns (some ⟨w, 0⟩) l s) = .next (withInputs l u) :=
    (step_due rfl).trans (complete_withTurns hu _ l)
  exact ⟨l, hl, (run_add hrun 1).trans (run_one hstep)⟩

theorem poll_onlyWaits {Q : List HostAction → Prop} {rest : List HostAction} (h : Q (.poll :: rest)) :
    OnlyWaits Q (.poll :: rest) :=
  ⟨.poll :: rest, h, fun s hr hb hi => (hostTurn_cons hi).trans (hostPoll_busy (s := withInputs rest s) hr hb)⟩

/-- A host that only polls or idles. -/
def Passive (l : List HostAction) : Prop := ∀ a ∈ l, a = .poll ∨ a = .idle

theorem passive_onlyWaits (l : List HostAction) (hl : Passive l) : OnlyWaits Passive l := by
  cases l with
  | nil => exact ⟨[], hl, fun s _ _ hi => by rw [hostTurn_nil hi, withInputs_self hi]⟩
  | cons a rest =>
    rcases hl a List.mem_cons_self with rfl | rfl
    · exact poll_onlyWaits hl
    · exact ⟨rest, fun b hb => hl b (.tail _ hb), fun s _ _ hi => hostTurn_cons hi⟩

/-- Settles O55: a host that only polls or idles goes on doing so until the command is due. -/
theorem everyCommandCompletes : Obligations.EveryCommandCompletes := by
  intro s v n hr hp hi
  obtain ⟨u, hu, -⟩ := complete_next v s
  obtain ⟨l, -, hrun⟩ := run_completes passive_onlyWaits hr hp hi hu
  exact ⟨_, u, hu, hrun, rfl⟩

/-- Some run leads from `s` to `t`. -/
def Reaches (s t : State) : Prop := ∃ k, Host.Core.run core k s = .next t

theorem Reaches.refl (s : State) : Reaches s s := ⟨0, run_zero s⟩

theorem Reaches.step {s t : State} (h : step s = .next t) : Reaches s t := ⟨1, run_one h⟩

theorem Reaches.trans {s t u : State} (hst : Reaches s t) (htu : Reaches t u) : Reaches s u := by
  obtain ⟨m, hm⟩ := hst
  obtain ⟨n, hn⟩ := htu
  exact ⟨m + n, (run_add hm n).trans hn⟩

/-- A CMD write and its POLL lead from an idle core to the command's completion (70_reset_and_hazards.md R297). -/
theorem reaches_polled {s t : State} {v : Word} {rest : List HostAction} (hr : s.rstN = true) (hp : s.pending = none)
    (hi : s.inputs = .write .word 0x004 v :: .poll :: rest)
    (ht : complete v (issue v (withInputs rest s)) = .next t) : Reaches s t := by
  have hissue : Reaches s (issue v (withInputs (.poll :: rest) s)) := .step (step_issue hr hp hi)
  have hcomplete : complete v (issue v (withInputs (.poll :: rest) s)) = .next (withInputs (.poll :: rest) t) :=
    complete_withTurns ht (some ⟨v, _⟩) (.poll :: rest)
  obtain ⟨l, rfl, hrun⟩ := run_completes (Q := Eq (.poll :: rest)) (fun l hl => hl ▸ poll_onlyWaits rfl)
    (s := issue v (withInputs (.poll :: rest) s)) hr rfl rfl hcomplete
  obtain ⟨u, hu, hframe⟩ := complete_next v (issue v (withInputs rest s))
  obtain rfl : u = t := by simpa [hu] using ht
  have hrst : u.rstN = true := hframe.rstN.trans hr
  have hinputs : u.inputs = rest := hframe.inputs
  have hpoll : step (withInputs (.poll :: rest) u) = .next (withInputs rest u) := by
    rw [step_idle (s := withInputs (.poll :: rest) u) hframe.pending, hostTurn_cons rfl]
    exact hostPoll_idle (s := withInputs rest u) hrst (busy_eq_false.2 hframe.pending)
  rw [withInputs_self hinputs] at hpoll
  exact hissue.trans (.trans ⟨_, hrun⟩ (.step hpoll))

/-- Settles O56: the completion's frame gives the host's turns to come. -/
theorem polledCommandsRunAsOneStep : Obligations.PolledCommandsRunAsOneStep := by
  intro s v rest hr hp hi
  obtain ⟨t, ht, hframe⟩ := complete_next v (issue v { s with inputs := rest })
  obtain ⟨k, hk⟩ := reaches_polled hr hp hi ht
  exact ⟨k, t, hk, hframe.inputs, hframe.pending, ht⟩

end Sys2Proof.Machine

/-! # The field GF(2^8) (40_gf_arith.md R130 to R133; 41_sbox.md R151)

Associativity, as commutativity before it, needs proof at the single bits alone. The forward table gives each byte's
inverse, its affine map being undone by another one; and with inverses there are no zero divisors. -/

namespace Sys2Proof.Machine

/-! ## Doubling -/

/-- Doubling a byte's number and reducing it by 0x11B where it has nine bits, at each row and column of a table. -/
theorem toNat_xtime_rowColumn (hi lo : BitVec 4) :
    (xtime (hi ++ lo)).toNat =
      if 2 * (hi ++ lo).toNat < 256 then 2 * (hi ++ lo).toNat else (2 * (hi ++ lo).toNat) ^^^ 0x11B := by
  revert hi lo
  decide

/-- A byte is its row and its column in a table. -/
theorem byte_eq_rowColumn (a : Byte) : a = a.extractLsb' 4 4 ++ a.extractLsb' 0 4 := by
  rw [BitVec.extractLsb'_append_extractLsb'_eq_extractLsb' (by rfl), BitVec.extractLsb'_eq_self]

theorem toNat_xtime (b : Byte) :
    (xtime b).toNat = if 2 * b.toNat < 256 then 2 * b.toNat else (2 * b.toNat) ^^^ 0x11B := by
  rw [byte_eq_rowColumn b]
  exact toNat_xtime_rowColumn _ _

/-! ## Associativity -/

theorem gmul_twoPow_assoc : ∀ i < 8, ∀ j < 8, ∀ k < 8,
    gmul (gmul (.twoPow 8 i) (.twoPow 8 j)) (.twoPow 8 k) = gmul (.twoPow 8 i) (gmul (.twoPow 8 j) (.twoPow 8 k)) := by
  decide

/-- The product is associative, since it is so at the single bits of the operands (40_gf_arith.md R133). -/
theorem gmul_assoc (a b c : Byte) : gmul (gmul a b) c = gmul a (gmul b c) := by
  induction a using xor_induction with
  | hzero => simp only [gmul_zero_left]
  | hxor x y hx hy => simp only [gmul_xor_left, hx, hy]
  | hbit i hi =>
    induction b using xor_induction with
    | hzero => simp only [gmul_zero_left, gmul_zero_right]
    | hxor x y hx hy => simp only [gmul_xor_left, gmul_xor_right, hx, hy]
    | hbit j hj =>
      induction c using xor_induction with
      | hzero => simp only [gmul_zero_right]
      | hxor x y hx hy => simp only [gmul_xor_right, hx, hy]
      | hbit k hk => exact gmul_twoPow_assoc i hi j hj k hk

/-! ## Inverses -/

/-- The affine map of the forward table (41_sbox.md R151). -/
def affine (b : Byte) : Byte :=
  b ^^^ b.rotateLeft 1 ^^^ b.rotateLeft 2 ^^^ b.rotateLeft 3 ^^^ b.rotateLeft 4 ^^^ 0x63

/-- The byte the affine map takes to `Sbox[a]`: the inverse of `a`. -/
def fieldInverse (a : Byte) : Byte :=
  (sbox a).rotateLeft 1 ^^^ (sbox a).rotateLeft 3 ^^^ (sbox a).rotateLeft 6 ^^^ 0x05

theorem inverse_rowColumn (hi lo : BitVec 4) :
    (hi ++ lo = (0 : Byte) ∨ gmul (hi ++ lo) (fieldInverse (hi ++ lo)) = 1) ∧
      sbox (hi ++ lo) = affine (fieldInverse (hi ++ lo)) := by
  revert hi lo
  decide

theorem gmul_fieldInverse {a : Byte} (ha : a ≠ 0) : gmul a (fieldInverse a) = 1 := by
  rw [byte_eq_rowColumn a] at ha ⊢
  exact (inverse_rowColumn _ _).1.resolve_left ha

theorem sbox_eq_affine (a : Byte) : sbox a = affine (fieldInverse a) := by
  rw [byte_eq_rowColumn a]
  exact (inverse_rowColumn _ _).2

/-- A factor that is not 0 can be divided away, so the other one is 0 (40_gf_arith.md R133). -/
theorem eq_zero_of_gmul_eq_zero {a b : Byte} (h : gmul a b = 0) (ha : a ≠ 0) : b = 0 :=
  calc b = gmul (gmul (fieldInverse a) a) b := by rw [gmul_comm _ a, gmul_fieldInverse ha, gmul_one_left]
    _ = gmul (fieldInverse a) (gmul a b) := gmul_assoc _ a b
    _ = 0 := by rw [h, gmul_zero_right]

theorem sbox_no_fixed_rowColumn (hi lo : BitVec 4) :
    sbox (hi ++ lo) ≠ hi ++ lo ∧ sbox (hi ++ lo) ≠ (hi ++ lo) ^^^ 0xFF := by
  revert hi lo
  decide

/-! ## The statements on the field -/

/-- Settles O10: doubling by rows and columns, the ring's laws from additivity, and no zero divisors by inverses. -/
theorem productObeysTheFieldLaws : Obligations.ProductObeysTheFieldLaws :=
  ⟨toNat_xtime, gmul_comm, gmul_assoc, gmul_xor_right, fun a => ⟨gmul_one_right a, gmul_zero_right a⟩,
    fun _ _ h => or_iff_not_imp_left.2 (eq_zero_of_gmul_eq_zero h)⟩

/-- Settles O12: the inverse is read off the table, and the rest is the table's rows and columns. -/
theorem tableIsTheAffineInverse : Obligations.TableIsTheAffineInverse := by
  refine ⟨fun a ha => ⟨fieldInverse a, gmul_fieldInverse ha, sbox_eq_affine a⟩, by decide, fun a => ?_⟩
  rw [byte_eq_rowColumn a]
  exact sbox_no_fixed_rowColumn _ _

/-! ## INV_MIX_COLUMNS -/

theorem gmul_four_left (a : Byte) : gmul 4 a = xtime (xtime a) := (gmul_comm 4 a).trans BitVec.zero_xor

theorem gmul_eight_left (a : Byte) : gmul 8 a = xtime (xtime (xtime a)) := (gmul_comm 8 a).trans BitVec.zero_xor

theorem gmul_nine_left (a : Byte) : gmul 9 a = mul9 a :=
  calc gmul 9 a = gmul (8 ^^^ 1) a := rfl
    _ = mul9 a := by simp only [gmul_xor_left, gmul_eight_left, gmul_one_left, mul9]

theorem gmul_eleven_left (a : Byte) : gmul 11 a = mul11 a :=
  calc gmul 11 a = gmul (8 ^^^ 2 ^^^ 1) a := rfl
    _ = mul11 a := by simp only [gmul_xor_left, gmul_eight_left, gmul_two_left, gmul_one_left, mul11, mul2]

theorem gmul_thirteen_left (a : Byte) : gmul 13 a = mul13 a :=
  calc gmul 13 a = gmul (8 ^^^ 4 ^^^ 1) a := rfl
    _ = mul13 a := by simp only [gmul_xor_left, gmul_eight_left, gmul_four_left, gmul_one_left, mul13]

theorem gmul_fourteen_left (a : Byte) : gmul 14 a = mul14 a :=
  calc gmul 14 a = gmul (8 ^^^ 4 ^^^ 2) a := rfl
    _ = mul14 a := by simp only [gmul_xor_left, gmul_eight_left, gmul_four_left, gmul_two_left, mul14, mul2]

/-- Column mixing by the inverse matrix as products in the field (43_round_engine.md R185). -/
theorem blockAt_invMixColumns (b : Block) (k c : Fin 4) :
    blockAt (invMixColumns b) k c =
      gmul 14 (blockAt b k c) ^^^ gmul 11 (blockAt b (k + 1) c) ^^^ gmul 13 (blockAt b (k + 2) c) ^^^
        gmul 9 (blockAt b (k + 3) c) := by
  rw [blockAt, invMixColumns, blockCol_mapCols, colAt_invMixCol, ← gmul_fourteen_left, ← gmul_eleven_left,
    ← gmul_thirteen_left, ← gmul_nine_left]
  rfl

/-- Settles O20: the new STATE is the old one with its columns mixed by the inverse matrix, by products in the
field. -/
theorem invMixColumnsMultipliesEachColumn : Obligations.InvMixColumnsMultipliesEachColumn := by
  refine fun s => ⟨quadOf (invMixColumns (blkOf s.state)), fun k c => ?_, rfl⟩
  rw [byteK_quadOf, blockAt_invMixColumns]
  simp only [blockAt_blkOf]

end Sys2Proof.Machine

/-! # What each command writes (10_state.md R50; 44_mode_controller.md R239; 60_exceptions.md R286)

`OwnWrites` is the write matrix of one completion; over every step it leaves a register's own commands and the reset
input as its only ways to change. The events of a command that succeeds are counted by `eventCount`. -/

namespace Sys2Proof.Machine

/-! ## The write matrix -/

/-- Of the registers the engine writes, a completion of `i` from `s` to `t` changes those of its own alone. -/
structure OwnWrites (i : Instr) (s t : State) : Prop where
  gfRes : i ≠ .gfMul → t.gfRes = s.gfRes
  schedule : i ≠ .expandKey → i ≠ .msgStart → t.rk = s.rk ∧ t.nr = s.nr ∧ t.ksValid = s.ksValid
  dout : i ≠ .msgBlock → t.dout = s.dout
  cv : i ≠ .msgStart → i ≠ .msgBlock → t.cv = s.cv
  latched : i ≠ .msgStart → t.msgDir = s.msgDir ∧ t.msgMode = s.msgMode
  message : i ≠ .expandKey → i ≠ .msgStart → i ≠ .msgBlock → t.msgActive = s.msgActive ∧ t.blocksLeft = s.blocksLeft
  state : i = .nop ∨ i = .gfMul ∨ i = .expandKey ∨ i = .msgStart ∨ i = .msgBlock → t.state = s.state

theorem raiseError_ownWrites (i : Instr) (e : ErrCode) (s : State) : OwnWrites i s (raiseError e s) := by
  constructor <;> simp

theorem raiseError_endMessage_ownWrites (e : ErrCode) (s : State) :
    OwnWrites .msgStart s (raiseError e (endMessage s)) := by
  constructor <;> simp

/-- The outcome is a next state within the write matrix. -/
def WritesOwn (i : Instr) (s : State) (o : Host.Outcome State Fault Refusal) : Prop :=
  ∃ t, o = .next t ∧ OwnWrites i s t

theorem WritesOwn.next {i : Instr} {s t : State} (h : OwnWrites i s t) : WritesOwn i s (.next t) := ⟨t, rfl, h⟩

theorem WritesOwn.failed {i : Instr} {s : State} (e : ErrCode) : WritesOwn i s (.next (raiseError e s)) :=
  .next (raiseError_ownWrites i e s)

theorem WritesOwn.ite {i : Instr} {s : State} {o p : Host.Outcome State Fault Refusal} {c : Prop} [Decidable c]
    (ho : WritesOwn i s o) (hp : WritesOwn i s p) : WritesOwn i s (if c then o else p) := by
  split
  · exact ho
  · exact hp

theorem exec_writesOwn (i : Instr) (s : State) : WritesOwn i s (exec i s) := by
  cases i with
  | nop | gfMul => exact .next (by constructor <;> simp)
  | subBytes | invSubBytes | shiftRows | invShiftRows | mixColumns | invMixColumns =>
    exact .next (by constructor <;> simp [stepState_eq])
  | encState | decState => exact .ite (.failed _) (.next (by constructor <;> simp [blockState]))
  | addRoundKey r => exact .ite (.failed _) (.ite (.failed _) (.next (by constructor <;> simp [stepState_eq])))
  | msgBlock => exact .ite (.failed _) (.next (by constructor <;> simp [passDin_eq]))
  | expandKey =>
    cases hv : variant s.keyLen.toNat with
    | none => exact exec_expandKey_badKey hv ▸ .failed _
    | some v => exact exec_expandKey hv ▸ .next (by constructor <;> simp [expandAndStore])
  | msgStart =>
    refine .ite (.next (raiseError_endMessage_ownWrites _ s)) ?_
    cases hv : variant s.keyLen.toNat with
    | none => exact .next (raiseError_endMessage_ownWrites _ s)
    | some v => exact .next (by constructor <;> simp [expandAndStore])

theorem exec_ownWrites {i : Instr} {s t : State} (h : exec i s = .next t) : OwnWrites i s t := by
  obtain ⟨u, hu, hown⟩ := exec_writesOwn i s
  obtain rfl : u = t := by simpa [hu] using h
  exact hown

/-- Settles O38: the frame of completions and the write matrix. -/
theorem commandsWriteTheirOwnRegisters : Obligations.CommandsWriteTheirOwnRegisters := by
  intro i s
  obtain ⟨t, ht, hf⟩ := exec_next i s
  have hown := exec_ownWrites ht
  exact ⟨t, ht, ⟨hf.ctrl, hf.keyLen, hf.msgLen, hf.gfOpnd, hf.key, hf.iv, hf.din, hf.lastOp, hf.rstN, hf.inputs,
    hf.reads⟩, hf.pending, hown.gfRes, hown.schedule, hown.dout, hown.cv, hown.latched, hown.message, hown.state⟩

/-- Settles O25: a block command is `blockState` of its sequence, which writes STATE, ERR, BUSY, the trace and the
working block. -/
theorem blockCommandsReplaceTheState : Obligations.BlockCommandsReplaceTheState := fun _ hks =>
  ⟨⟨_, _, exec_encState hks⟩, ⟨_, _, exec_decState hks⟩⟩

/-! ## CV, RK and DOUT over every step -/

/-- CV, RK and DOUT are as they were. -/
structure SameStores (s t : State) : Prop where
  cv : t.cv = s.cv
  rk : t.rk = s.rk
  dout : t.dout = s.dout

theorem busWrite_sameStores (off : BitVec 9) (v : Word) (s : State) : SameStores s (busWrite off v s) := by
  obtain ⟨hrk, -, -, hcv, hdout, -⟩ := busWrite_frame off v s
  exact ⟨hcv, hrk, hdout⟩

theorem hostAct_sameStores {a : HostAction} {s t : State} (h : hostAct a s = .next t) (ha : a ≠ .driveRst false) :
    SameStores s t := by
  rcases hostAct_cases h with ⟨-, rfl⟩ | ⟨z, off, -, -, -, -, rfl⟩ | ⟨z, off, -, -, -, -, rfl⟩ |
    ⟨z, off, v, -, -, -, -, rfl⟩ | ⟨-, -, -, rfl⟩ | ⟨-, -, -, rfl⟩ | ⟨high, rfl, rfl⟩
  · exact ⟨rfl, rfl, rfl⟩
  · exact ⟨rfl, rfl, rfl⟩
  · exact ⟨rfl, rfl, rfl⟩
  · exact busWrite_sameStores off v s
  · exact ⟨rfl, rfl, rfl⟩
  · exact ⟨rfl, rfl, rfl⟩
  · cases high with
    | false => exact absurd rfl ha
    | true => exact ⟨rfl, rfl, rfl⟩

/-- The host reaches the three only by driving `rst_n` low. -/
theorem hostTurn_sameStores {s t : State} (h : hostTurn s = .next t) :
    SameStores s t ∨ ∃ rest, s.inputs = .driveRst false :: rest := by
  rcases hostTurn_cases h with ⟨-, rfl⟩ | ⟨a, rest, hi, ha⟩
  · exact .inl ⟨rfl, rfl, rfl⟩
  · by_cases hlow : a = .driveRst false
    · exact .inr ⟨rest, hlow ▸ hi⟩
    · obtain ⟨hcv, hrk, hdout⟩ := hostAct_sameStores ha hlow
      exact .inl ⟨hcv, hrk, hdout⟩

/-- A step completes a command, changes none of the three, or is the host's driving `rst_n` low. -/
theorem step_stores {s t : State} (h : step s = .next t) :
    (∃ v i, s.pending = some ⟨v, 0⟩ ∧ decode v = .ok i ∧ OwnWrites i s t) ∨ SameStores s t ∨
      (∀ v, s.pending ≠ some ⟨v, 0⟩) ∧ ∃ rest, s.inputs = .driveRst false :: rest := by
  rcases step_cases s with ⟨v, hp, hw⟩ | ⟨v, n, hp, hw⟩ | ⟨hp, hw⟩ <;> rw [hw] at h
  · cases hd : decode v with
    | ok i => exact .inl ⟨v, i, hp, hd, exec_ownWrites (complete_ok hd s ▸ h)⟩
    | error e =>
      rw [complete_error hd] at h
      cases h
      exact .inr (.inl ⟨rfl, rfl, rfl⟩)
  · rcases hostTurn_sameStores h with ⟨hcv, hrk, hdout⟩ | hlow
    · exact .inr (.inl ⟨hcv, hrk, hdout⟩)
    · exact .inr (.inr ⟨by simp [hp], hlow⟩)
  · rcases hostTurn_sameStores h with hsame | hlow
    · exact .inr (.inl hsame)
    · exact .inr (.inr ⟨by simp [hp], hlow⟩)

/-- Settles O39: of the ways a step can go, a completion within the write matrix and a reset are those that reach the
three. -/
theorem onlyTheirCommandsReachCvRkAndDout : Obligations.OnlyTheirCommandsReachCvRkAndDout := by
  intro s t h due pulled
  rcases step_stores h with ⟨v, i, hp, hd, hown⟩ | hsame | hpulled
  · have hdue (j : Instr) (hj : i = j) : due j := ⟨v, hp, hj ▸ hd⟩
    refine ⟨fun hne => ?_, fun hne => ?_, fun hne => ?_⟩
    · by_contra hnot
      obtain ⟨hstart, hblock, -⟩ : ¬due .msgStart ∧ ¬due .msgBlock ∧ ¬pulled := by simpa only [not_or] using hnot
      exact hne (hown.cv (mt (hdue _) hstart) (mt (hdue _) hblock))
    · by_contra hnot
      obtain ⟨hexpand, hstart, -⟩ : ¬due .expandKey ∧ ¬due .msgStart ∧ ¬pulled := by simpa only [not_or] using hnot
      exact hne (hown.schedule (mt (hdue _) hexpand) (mt (hdue _) hstart)).1
    · by_contra hnot
      obtain ⟨hblock, -⟩ : ¬due .msgBlock ∧ ¬pulled := by simpa only [not_or] using hnot
      exact hne (hown.dout (mt (hdue _) hblock))
  · exact ⟨fun hne => absurd hsame.cv hne, fun hne => absurd hsame.rk hne, fun hne => absurd hsame.dout hne⟩
  · exact ⟨fun _ => .inr (.inr hpulled), fun _ => .inr (.inr hpulled), fun _ => .inr hpulled⟩

/-! ## Events -/

/-- How many events a command that succeeds from `s` emits, `nr` being the rounds it leaves (60_exceptions.md R286). -/
def eventCount (i : Instr) (s : State) (nr : BitVec 4) : Nat :=
  match i with
  | .nop | .gfMul => 0
  | .subBytes | .invSubBytes | .shiftRows | .invShiftRows | .mixColumns | .invMixColumns | .addRoundKey _ => 1
  | .encState | .decState => 4 * rounds s
  | .msgBlock => 4 * rounds s + if s.msgMode = .cbc then 1 else 0
  | .expandKey | .msgStart => if nr = 14 then 79 else 70

/-- A valid schedule has a round at least (10_state.md R37). -/
theorem StatusInv.one_le_rounds {s : State} (hs : StatusInv s) (hks : s.ksValid = true) : 1 ≤ rounds s := by
  obtain ⟨-, hvalid, -⟩ := hs
  rcases hvalid.1 hks with h | h | h <;> simp [rounds, h]

theorem StatusInv.ksValid_of_msgActive {s : State} (hs : StatusInv s) (hm : s.msgActive = true) : s.ksValid = true := by
  obtain ⟨-, -, hopen, -⟩ := hs
  exact (hopen hm).1

theorem cipher_events_length {key : Nat → Block} {nr : Nat} (hnr : 1 ≤ nr) (b : Block) :
    (cipher key nr b).2.length = 4 * nr := by
  rw [cipher, runSteps_events_length, cipherSteps_length hnr]

theorem invCipher_events_length {key : Nat → Block} {nr : Nat} (hnr : 1 ≤ nr) (b : Block) :
    (invCipher key nr b).2.length = 4 * nr := by
  rw [invCipher, runSteps_events_length, invCipherSteps_length hnr]

/-- A block passed emits its transform's events, and in CBC one more for the XOR (60_exceptions.md R285). -/
theorem passBlock_events_length {key : Nat → Block} {nr : Nat} (hnr : 1 ≤ nr) (dir : Dir) (mode : Mode)
    (cv p : Block) :
    (passBlock key nr dir mode cv p).events.length = 4 * nr + if mode = .cbc then 1 else 0 := by
  cases dir <;> cases mode <;> simp [passBlock, cipher_events_length hnr, invCipher_events_length hnr]

theorem keyExpansion_events_length_of_variant (key : List Byte) {len nk nr : Nat}
    (hv : variant len = some (nk, nr)) :
    (keyExpansion key nk nr).2.length = if BitVec.ofNat 4 nr = 14 then 79 else 70 := by
  obtain ⟨h10, h12, h14⟩ := keyExpansion_event_counts key hv
  rcases variant_cases hv with ⟨-, -, rfl⟩ | ⟨-, -, rfl⟩ | ⟨-, -, rfl⟩
  · exact h10 rfl
  · exact h12 rfl
  · exact h14 rfl

/-- The trace of `t` is that of `s` and `n` events more. -/
def Emits (s t : State) (n : Nat) : Prop := ∃ es : List TraceEvent, t.trace = s.trace ++ es ∧ es.length = n

/-- A command without an error emits its count of events. -/
theorem exec_emits {i : Instr} {s t : State} (hs : StatusInv s) (h : exec i s = .next t) (herr : t.err = 0) :
    Emits s t (eventCount i s t.nr) := by
  have hok : commandError i s = .ok := ErrCode.code_inj.1 ((exec_err h).symm.trans herr)
  cases i with
  | nop | gfMul => cases h; exact ⟨[], (List.append_nil _).symm, rfl⟩
  | subBytes | invSubBytes | shiftRows | invShiftRows | mixColumns | invMixColumns => cases h; exact ⟨_, rfl, rfl⟩
  | addRoundKey r =>
    obtain ⟨hks, hr⟩ : s.ksValid = true ∧ r ≤ rounds s := by
      simp only [commandError] at hok
      split_ifs at hok with hks hr
      exact ⟨by simpa using hks, not_lt.1 hr⟩
    rw [exec_addRoundKey hks hr] at h
    cases h
    exact ⟨_, rfl, rfl⟩
  | encState =>
    have hks : s.ksValid = true := by simpa [commandError] using hok
    rw [exec_encState hks] at h
    cases h
    exact ⟨_, rfl, cipher_events_length (hs.one_le_rounds hks) _⟩
  | decState =>
    have hks : s.ksValid = true := by simpa [commandError] using hok
    rw [exec_decState hks] at h
    cases h
    exact ⟨_, rfl, invCipher_events_length (hs.one_le_rounds hks) _⟩
  | msgBlock =>
    have hm : s.msgActive = true := by simpa [commandError] using hok
    rw [exec_msgBlock_open hm] at h
    cases h
    exact ⟨_, rfl, passBlock_events_length (hs.one_le_rounds (hs.ksValid_of_msgActive hm)) _ _ _ _⟩
  | expandKey =>
    simp only [commandError] at hok
    split_ifs at hok with hnone
    obtain ⟨⟨nk, nr⟩, hv⟩ := Option.ne_none_iff_exists'.1 hnone
    rw [exec_expandKey hv] at h
    cases h
    exact ⟨_, rfl, keyExpansion_events_length_of_variant _ hv⟩
  | msgStart =>
    simp only [commandError] at hok
    split_ifs at hok with hlen hnone
    obtain ⟨⟨nk, nr⟩, hv⟩ := Option.ne_none_iff_exists'.1 hnone
    rw [exec_msgStart (by simpa using hlen) hv] at h
    cases h
    exact ⟨_, rfl, keyExpansion_events_length_of_variant _ hv⟩

theorem failedState_trace (i : Instr) (e : ErrCode) (s : State) : (failedState i e s).trace = s.trace := by
  unfold failedState
  split <;> rfl

/-- Settles O59: a failure emits nothing, and a command that succeeds `eventCount` events. -/
theorem eventCountsPerCommand : Obligations.EventCountsPerCommand := by
  intro i s t hs h
  refine ⟨fun herr => by rw [exec_eq_failedState h herr, failedState_trace], fun herr => ?_⟩
  obtain ⟨es, htrace, hcount⟩ := exec_emits hs h herr
  refine ⟨es, htrace, ?_, ?_, ?_, ?_, ?_, ?_⟩
  · rintro (rfl | rfl) <;> exact List.length_eq_zero_iff.1 hcount
  · rintro (rfl | rfl | rfl | rfl | rfl | rfl | ⟨r, rfl⟩) <;> exact hcount
  · rintro (rfl | rfl) <;> exact hcount
  · rintro rfl hmode
    simpa [eventCount, rounds, hmode] using hcount
  · rintro rfl hmode
    simpa [eventCount, rounds, hmode] using hcount
  · rintro (rfl | rfl) <;> exact hcount

/-! ## Outputs of a message -/

/-- Blocks pass only through an open message, and their outputs are those of the chaining rules. -/
theorem outputs_of_passBlocks {s t : State} {ps cs : List Block} (h : passBlocks ps s = some (t, cs)) :
    cs = chainBlocks (roundKey s.rk) (rounds s) s.msgDir s.msgMode (blkOf s.cv) ps := by
  induction ps generalizing s cs with
  | nil => cases h; rfl
  | cons p ps ih =>
    cases hm : s.msgActive with
    | false =>
      rw [passBlocks, exec_msgBlock_closed (s := { s with din := quadOf p }) hm] at h
      simp [ErrCode.code] at h
    | true =>
      rw [passBlocks_cons_open hm] at h
      obtain ⟨⟨u, outs⟩, hrest, hout⟩ := Option.map_eq_some_iff.1 h
      cases hout
      have hcv : blkOf (passDin { s with din := quadOf p }).cv =
          (passBlock (roundKey s.rk) (rounds s) s.msgDir s.msgMode (blkOf s.cv) p).cv := by
        simp [passDin_eq, dinResult_set_din]
      rw [chainBlocks, ih hrest, hcv]
      rfl

/-- In ECB an output is a function of its own block (44_mode_controller.md R231, R233). -/
theorem chainBlocks_ecb_getElem? (key : Nat → Block) (nr : Nat) (dir : Dir) (cv : Block) (ps : List Block) (j : Nat) :
    (chainBlocks key nr dir .ecb cv ps)[j]? = ps[j]?.map fun p => (passBlock key nr dir .ecb cv p).out := by
  have hsame (p : Block) : (passBlock key nr dir .ecb cv p).cv = cv := by cases dir <;> rfl
  induction ps generalizing j with
  | nil => rfl
  | cons p ps ih =>
    rw [chainBlocks, hsame]
    cases j with
    | zero => rfl
    | succ j => exact ih j

/-- In ECB the chaining vector is not read. -/
theorem passBlock_ecb_out (key : Nat → Block) (nr : Nat) (dir : Dir) (cv cv' p : Block) :
    (passBlock key nr dir .ecb cv p).out = (passBlock key nr dir .ecb cv' p).out := by
  cases dir <;> rfl

/-- The first outputs are those of the first blocks. -/
theorem take_chainBlocks (key : Nat → Block) (nr : Nat) (dir : Dir) (mode : Mode) (cv : Block) (ps : List Block)
    (n : Nat) : (chainBlocks key nr dir mode cv ps).take n = chainBlocks key nr dir mode cv (ps.take n) := by
  induction ps generalizing cv n with
  | nil => simp [chainBlocks]
  | cons p ps ih =>
    cases n with
    | zero => rfl
    | succ n => simp [chainBlocks, ih]

/-- Settles O33: both messages' outputs are those of the chaining rules, which in ECB go block by block and always go
from the first block on. -/
theorem outputsDependOnNoLaterBlock : Obligations.OutputsDependOnNoLaterBlock := by
  refine ⟨fun s s' ps ps' cs cs' t t' j hecb hecb' hdir hrk hnr hblock h h' => ?_,
    fun s s' ps ps' cs cs' t t' j hmode hdir hrk hnr hcv hblocks h h' => ?_⟩
  · rw [outputs_of_passBlocks h, outputs_of_passBlocks h', hecb, hecb', hdir, hrk, rounds, rounds, hnr,
      chainBlocks_ecb_getElem?, chainBlocks_ecb_getElem?, hblock]
    simp only [passBlock_ecb_out _ _ _ (blkOf s.cv) (blkOf s'.cv)]
  · have htake : cs.take (j + 1) = cs'.take (j + 1) := by
      rw [outputs_of_passBlocks h, outputs_of_passBlocks h', hmode, hdir, hrk, rounds, rounds, hnr, hcv,
        take_chainBlocks, take_chainBlocks, hblocks]
    rw [← List.getElem?_take_of_lt (Nat.lt_succ_self j), htake, List.getElem?_take_of_lt (Nat.lt_succ_self j)]

end Sys2Proof.Machine

/-! # The registers by their access kinds (10_state.md R22, R23, R36; 20_memory.md R79)

A read at a register's offset is the register, and a write there is a write of it; so reads after writes are a matter of
registers, of which each keeps its own defined bits and no other's. -/

namespace Sys2Proof.Machine

/-! ## Offsets -/

/-- An aligned offset within a group of `n` registers from `base` on is that of one of them (10_state.md R22). -/
theorem offset_of_group {off : BitVec 9} (ha : off.extractLsb' 0 2 = 0) {base : Nat} (n : Nat) (hbase : base % 4 = 0)
    (hlow : base ≤ off.toNat) (hhigh : off.toNat < base + 4 * n) :
    ∃ j : Fin n, off = BitVec.ofNat 9 (base + 4 * j.val) := by
  have hmod : off.toNat % 4 = 0 := by simpa using congrArg BitVec.toNat ha
  have hlt : off.toNat < 2 ^ 9 := off.isLt
  refine ⟨⟨(off.toNat - base) / 4, by omega⟩, BitVec.eq_of_toNat_eq ?_⟩
  have hsum : base + 4 * ((off.toNat - base) / 4) = off.toNat := by omega
  rw [hsum, BitVec.toNat_ofNat, Nat.mod_eq_of_lt hlt]

/-! ## STATUS -/

/-- The fields of one bit, where no command is in progress (10_state.md R36). -/
theorem statusWord_bits {s : State} (hp : s.pending = none) :
    (statusWord s).getLsbD 0 = false ∧ (statusWord s).getLsbD 1 = s.ksValid ∧
    (statusWord s).getLsbD 2 = s.msgActive ∧ (statusWord s).getLsbD 3 = s.doutValid ∧
    (statusWord s).getLsbD 16 = Dir.bit s.msgDir ∧ (statusWord s).getLsbD 17 = Mode.bit s.msgMode := by
  have hbusy : busy s = false := busy_eq_false.2 hp
  simp only [statusWord, BitVec.getLsbD_append]
  simp [hbusy]

/-- The wider fields, and the reserved ranges between them. -/
theorem statusWord_ranges (s : State) :
    (statusWord s).extractLsb' 4 4 = 0 ∧ (statusWord s).extractLsb' 8 4 = s.err ∧
    (statusWord s).extractLsb' 12 4 = s.nr ∧ (statusWord s).extractLsb' 18 6 = 0 ∧
    (statusWord s).extractLsb' 24 8 = s.lastOp := by
  simp (disch := omega) only [statusWord, BitVec.extractLsb'_append_eq_of_le,
    BitVec.extractLsb'_append_eq_of_add_le]
  simp [BitVec.extractLsb'_eq_self]

theorem dirBit_eq_true_iff {d : Dir} : Dir.bit d = true ↔ d = .decrypt := by cases d <;> decide

theorem modeBit_eq_true_iff {m : Mode} : Mode.bit m = true ↔ m = .cbc := by cases m <;> decide

/-! ## Reads after writes -/

@[simp] theorem quadGet_quadSet_same (q : Quad) (j : Fin 4) (v : Word) : quadGet (quadSet q j v) j = v := by
  fin_cases j <;> rfl

theorem quadGet_quadSet_of_ne {j j' : Fin 4} (h : j ≠ j') (q : Quad) (v : Word) :
    quadGet (quadSet q j v) j' = quadGet q j' := by
  fin_cases j <;> fin_cases j' <;> simp_all [quadGet, quadSet]

/-- A register of `n` bits reads back the low `n` bits of what was written (10_state.md R23). -/
theorem setWidth_setWidth_eq_and (v m : Word) {n : Nat} (hn : n ≤ 32) (hm : m.toNat = 2 ^ n - 1) :
    (v.setWidth n).setWidth 32 = v &&& m := by
  apply BitVec.eq_of_toNat_eq
  rw [BitVec.toNat_setWidth_of_le hn, BitVec.toNat_setWidth, BitVec.toNat_and, hm, Nat.and_two_pow_sub_one_eq_mod]

/-- The registers of the groups the host may write keep all 32 bits of a write. -/
inductive Reg.KeepsWord : Reg → Prop where
  | key (j : Fin 8) : KeepsWord (.key j)
  | iv (j : Fin 4) : KeepsWord (.iv j)
  | din (j : Fin 4) : KeepsWord (.din j)
  | state (j : Fin 4) : KeepsWord (.state j)

theorem readReg_writeReg_same {r : Reg} (hr : r.KeepsWord) (v : Word) (s : State) : readReg r (writeReg r v s) = v := by
  cases hr with
  | key j => simp [readReg, writeReg]
  | iv j | din j | state j => simp [readReg, writeReg]

/-- The offsets of the groups the host may write (10_state.md R22). -/
theorem offset_of_keepsWord_range {off : BitVec 9} (ha : off.extractLsb' 0 2 = 0)
    (h : (0x020 ≤ off.toNat ∧ off.toNat ≤ 0x05C) ∨ (0x070 ≤ off.toNat ∧ off.toNat ≤ 0x07C)) :
    ∃ r : Reg, r.KeepsWord ∧ off = Reg.offset r := by
  have hgroup : (0x020 ≤ off.toNat ∧ off.toNat < 0x020 + 4 * 8) ∨ (0x040 ≤ off.toNat ∧ off.toNat < 0x040 + 4 * 4) ∨
      (0x050 ≤ off.toNat ∧ off.toNat < 0x050 + 4 * 4) ∨ (0x070 ≤ off.toNat ∧ off.toNat < 0x070 + 4 * 4) := by omega
  rcases hgroup with ⟨hl, hh⟩ | ⟨hl, hh⟩ | ⟨hl, hh⟩ | ⟨hl, hh⟩
  · obtain ⟨j, hj⟩ := offset_of_group ha 8 rfl hl hh
    exact ⟨_, .key j, hj⟩
  · obtain ⟨j, hj⟩ := offset_of_group ha 4 rfl hl hh
    exact ⟨_, .iv j, hj⟩
  · obtain ⟨j, hj⟩ := offset_of_group ha 4 rfl hl hh
    exact ⟨_, .din j, hj⟩
  · obtain ⟨j, hj⟩ := offset_of_group ha 4 rfl hl hh
    exact ⟨_, .state j, hj⟩

/-- The registers that ignore a write (10_state.md R23). -/
inductive Reg.ReadOnly : Reg → Prop where
  | status : ReadOnly .status
  | blocksLeft : ReadOnly .blocksLeft
  | gfRes : ReadOnly .gfRes
  | dout (j : Fin 4) : ReadOnly (.dout j)
  | cv (j : Fin 4) : ReadOnly (.cv j)
  | rk (i : Fin 60) : ReadOnly (.rk i)

theorem writeReg_readOnly {r : Reg} (hr : r.ReadOnly) (v : Word) (s : State) : writeReg r v s = s := by
  cases hr <;> rfl

/-- The offsets of the registers that ignore a write (10_state.md R22). -/
theorem offset_of_readOnly_range {off : BitVec 9} (ha : off.extractLsb' 0 2 = 0)
    (h : off = 0x008 ∨ off = 0x014 ∨ off = 0x01C ∨ (0x060 ≤ off.toNat ∧ off.toNat ≤ 0x06C) ∨
      (0x080 ≤ off.toNat ∧ off.toNat ≤ 0x08C) ∨ (0x100 ≤ off.toNat ∧ off.toNat ≤ 0x1EC)) :
    ∃ r : Reg, r.ReadOnly ∧ off = Reg.offset r := by
  rcases h with rfl | rfl | rfl | ⟨hl, hh⟩ | ⟨hl, hh⟩ | ⟨hl, hh⟩
  · exact ⟨_, .status, rfl⟩
  · exact ⟨_, .blocksLeft, rfl⟩
  · exact ⟨_, .gfRes, rfl⟩
  · obtain ⟨j, hj⟩ := offset_of_group ha 4 rfl hl (by omega)
    exact ⟨_, .dout j, hj⟩
  · obtain ⟨j, hj⟩ := offset_of_group ha 4 rfl hl (by omega)
    exact ⟨_, .cv j, hj⟩
  · obtain ⟨j, hj⟩ := offset_of_group ha 60 rfl hl (by omega)
    exact ⟨_, .rk j, hj⟩

theorem busRead_busWrite_offset (r : Reg) (v : Word) (s : State) :
    busRead (Reg.offset r) (busWrite (Reg.offset r) v s) = readReg r (writeReg r v s) := by
  rw [busRead_offset, busWrite_offset]

/-! ## The statement on access kinds -/

/-- Reads with BUSY = 0, register by register. -/
theorem busRead_registers (s : State) :
    (busRead 0x000 s).toNat = s.ctrl.toNat ∧ busRead 0x004 s = 0 ∧ (busRead 0x00C s).toNat = s.keyLen.toNat ∧
    busRead 0x010 s = s.msgLen ∧ (busRead 0x014 s).toNat = s.blocksLeft.toNat ∧
    (busRead 0x018 s).toNat = s.gfOpnd.toNat ∧ (busRead 0x01C s).toNat = s.gfRes.toNat := by
  have hwidth {n : Nat} (hn : n ≤ 32) (x : BitVec n) : (x.setWidth 32).toNat = x.toNat :=
    BitVec.toNat_setWidth_of_le hn
  refine ⟨?_, busRead_offset .cmd s, ?_, busRead_offset .msgLen s, ?_, ?_, ?_⟩
  · exact (congrArg BitVec.toNat (busRead_offset .ctrl s)).trans (hwidth (by omega) _)
  · exact (congrArg BitVec.toNat (busRead_offset .keyLen s)).trans (hwidth (by omega) _)
  · exact (congrArg BitVec.toNat (busRead_offset .blocksLeft s)).trans (hwidth (by omega) _)
  · exact (congrArg BitVec.toNat (busRead_offset .gfOpnd s)).trans (hwidth (by omega) _)
  · exact (congrArg BitVec.toNat (busRead_offset .gfRes s)).trans (hwidth (by omega) _)

/-- Settles O46: each access is that of the register at its offset. -/
theorem registersKeepTheirAccessKinds : Obligations.RegistersKeepTheirAccessKinds := by
  refine ⟨fun s hp => ?_, fun s => ?_, fun s v => ⟨?_, ?_, ?_, ?_, fun off ha h => ?_⟩, fun s v off ha h => ?_⟩
  · have hread : busRead 0x008 s = statusWord s := busRead_offset .status s
    obtain ⟨hbusy, hks, hma, hdv, hdir, hmode⟩ := statusWord_bits hp
    obtain ⟨hlow, herr, hnr, hhigh, hop⟩ := statusWord_ranges s
    rw [hread]
    exact ⟨hbusy, hks, hma, hdv, hlow, herr, hnr, hdir ▸ dirBit_eq_true_iff, hmode ▸ modeBit_eq_true_iff, hhigh, hop⟩
  · obtain ⟨hctrl, hcmd, hkl, hml, hbl, hopnd, hres⟩ := busRead_registers s
    exact ⟨hctrl, hcmd, hkl, hml, hbl, hopnd, hres, fun j => busRead_offset (.key j) s,
      fun j => ⟨busRead_offset (.iv j) s, busRead_offset (.din j) s, busRead_offset (.dout j) s,
        busRead_offset (.state j) s, busRead_offset (.cv j) s⟩, fun i => busRead_offset (.rk i) s⟩
  · exact (busRead_busWrite_offset .ctrl v s).trans (setWidth_setWidth_eq_and v 0x00000007 (by omega) rfl)
  · exact (busRead_busWrite_offset .keyLen v s).trans (setWidth_setWidth_eq_and v 0x000000FF (by omega) rfl)
  · exact busRead_busWrite_offset .msgLen v s
  · exact (busRead_busWrite_offset .gfOpnd v s).trans (setWidth_setWidth_eq_and v 0x0000FFFF (by omega) rfl)
  · obtain ⟨r, hr, rfl⟩ := offset_of_keepsWord_range ha h
    rw [busRead_busWrite_offset, readReg_writeReg_same hr]
  · obtain ⟨r, hr, rfl⟩ := offset_of_readOnly_range ha h
    rw [busWrite_offset, writeReg_readOnly hr]

/-! ## Writes of other registers -/

/-- A write of a register other than CMD reaches that register alone. -/
theorem readReg_writeReg_of_ne {r r' : Reg} (hne : r ≠ r') (hcmd : r ≠ .cmd) (v : Word) (s : State) :
    readReg r' (writeReg r v s) = readReg r' s := by
  cases r with
  | cmd => exact absurd rfl hcmd
  | status | blocksLeft | gfRes | dout | cv | rk => rfl
  | ctrl =>
    cases r' with
    | ctrl => exact absurd rfl hne
    | _ => rfl
  | keyLen =>
    cases r' with
    | keyLen => exact absurd rfl hne
    | _ => rfl
  | msgLen =>
    cases r' with
    | msgLen => exact absurd rfl hne
    | _ => rfl
  | gfOpnd =>
    cases r' with
    | gfOpnd => exact absurd rfl hne
    | _ => rfl
  | key j =>
    cases r' with
    | key j' =>
      have hj : j.val ≠ j'.val := fun h => hne (congrArg Reg.key (Fin.ext h))
      simp [readReg, writeReg, Vector.getElem_set_ne, hj]
    | _ => rfl
  | iv j =>
    cases r' with
    | iv j' => exact quadGet_quadSet_of_ne (fun h => hne (congrArg Reg.iv h)) _ _
    | _ => rfl
  | din j =>
    cases r' with
    | din j' => exact quadGet_quadSet_of_ne (fun h => hne (congrArg Reg.din h)) _ _
    | _ => rfl
  | state j =>
    cases r' with
    | state j' => exact quadGet_quadSet_of_ne (fun h => hne (congrArg Reg.state h)) _ _
    | _ => rfl

/-- Settles O47: two aligned offsets with registers are those of two registers. -/
theorem registerWritesStayApart : Obligations.RegisterWritesStayApart := by
  intro s v off off' ha ha' hne hcmd
  cases hreg : regAt off with
  | none => rw [busWrite_eq_self hreg]
  | some r =>
    cases hreg' : regAt off' with
    | none => rw [busRead_eq_zero hreg', busRead_eq_zero hreg']
    | some r' =>
      obtain rfl : Reg.offset r = off := offset_of_regAt ha hreg
      obtain rfl : Reg.offset r' = off' := offset_of_regAt ha' hreg'
      rw [busRead_offset, busRead_offset, busWrite_offset]
      exact readReg_writeReg_of_ne (fun h => hne (congrArg Reg.offset h)) (fun h => hcmd (congrArg Reg.offset h)) v s

end Sys2Proof.Machine

/-! # Hex text (00_scope.md R16; 60_exceptions.md R266)

A text spells bytes exactly when `hexBytes` answers them, and the driver rejects a call exactly when one of its texts
spells none, or its IV not sixteen. -/

namespace Sys2Proof.Machine

/-! ## Digits -/

/-- The digits' characters are those with codes in three ranges. -/
theorem hexDigit_isSome_iff {c : Char} : (hexDigit c).isSome = true ↔
    ('0' ≤ c ∧ c ≤ '9') ∨ ('a' ≤ c ∧ c ≤ 'f') ∨ ('A' ≤ c ∧ c ≤ 'F') := by
  unfold hexDigit
  split_ifs <;> simp_all

/-- The characters of the source's alphabet. -/
theorem mem_alphabet_of_code : ∀ n < 128, (hexDigit (Char.ofNat n)).isSome = true →
    Char.ofNat n ∈ "0123456789abcdefABCDEF".toList := by
  decide

theorem mem_alphabet_of_hexDigit {c : Char} (h : (hexDigit c).isSome = true) :
    c ∈ "0123456789abcdefABCDEF".toList := by
  have hcode : c.toNat < 128 := by
    rcases hexDigit_isSome_iff.1 h with ⟨-, hle⟩ | ⟨-, hle⟩ | ⟨-, hle⟩
    all_goals
      have hnat := UInt32.le_iff_toNat_le.1 (Char.le_def.1 hle)
      exact lt_of_le_of_lt hnat (by decide)
  rw [← Char.ofNat_toNat c] at h ⊢
  exact mem_alphabet_of_code c.toNat hcode h

/-! ## Bytes -/

/-- The text is an even number of hex digits. -/
def IsHex (text : List Char) : Prop := text.length % 2 = 0 ∧ ∀ c ∈ text, (hexDigit c).isSome

/-- The text spells the bytes: byte `k` by the digits `2k` and `2k + 1`, the first most significant. -/
def Spells (text : List Char) (bs : List Byte) : Prop :=
  text.length = 2 * bs.length ∧
    ∀ k, k < bs.length → ∃ x y, (text[2 * k]?).bind hexDigit = some x ∧ (text[2 * k + 1]?).bind hexDigit = some y ∧
      bs[k]? = some (BitVec.ofNat 8 (16 * x + y))

theorem hexBytes_eq_none_iff {text : List Char} : hexBytes text = none ↔ ¬IsHex text := by
  have hsome : (hexBytes text).isSome = true ↔ IsHex text := hexBytes_isSome text
  rw [← hsome, Option.not_isSome_iff_eq_none]

theorem hexBytes_of_spells {text : List Char} {bs : List Byte} (h : Spells text bs) : hexBytes text = some bs := by
  induction bs generalizing text with
  | nil =>
    obtain rfl : text = [] := List.length_eq_zero_iff.1 h.1
    rfl
  | cons b bs ih =>
    obtain ⟨hlen, hdigits⟩ := h
    match text, hlen, hdigits with
    | [], hlen, _ | [_], hlen, _ => simp only [List.length_cons, List.length_nil] at hlen; omega
    | c :: d :: rest, hlen, hdigits =>
      obtain ⟨x, y, hx, hy, hb⟩ := hdigits 0 (Nat.succ_pos _)
      have hrest : Spells rest bs := by
        refine ⟨by simp only [List.length_cons] at hlen; omega, fun k hk => ?_⟩
        simpa [Nat.mul_add] using hdigits (k + 1) (Nat.succ_lt_succ hk)
      have hbyte : b = BitVec.ofNat 8 (16 * x + y) := by simpa using hb
      exact hexBytes_cons_cons.2 ⟨x, y, bs, by simpa using hx, by simpa using hy, ih hrest, by rw [hbyte]⟩

/-! ## Blocks of bytes -/

theorem colAt_colFrom (bs : List Byte) (start : Nat) (r : Fin 4) :
    colAt (colFrom bs start) r = bs.getD (start + r.val) 0 := by
  fin_cases r <;> rfl

/-- Byte `r` of column `c` of a block is byte `4c + r` of its sixteen (00_scope.md R14). -/
theorem blockAt_blockFrom (bs : List Byte) (j : Nat) (r c : Fin 4) :
    blockAt (blockFrom bs j) r c = bs.getD (16 * j + 4 * c.val + r.val) 0 := by
  fin_cases c <;> exact colAt_colFrom _ _ r

/-- Two blocks with the same bytes are equal. -/
theorem block_ext {a b : Block} (h : ∀ r c, blockAt a r c = blockAt b r c) : a = b := by
  have hcol (c : Fin 4) : blockCol a c = blockCol b c := col_ext fun r => h r c
  cases a; cases b
  simpa [blockCol] using ⟨hcol 0, hcol 1, hcol 2, hcol 3⟩

theorem blockFrom_zero_eq {bs : List Byte} {b : Block}
    (h : ∀ r c : Fin 4, bs[4 * c.val + r.val]? = some (blockAt b r c)) : blockFrom bs 0 = b := by
  refine block_ext fun r c => ?_
  rw [blockAt_blockFrom, List.getD_eq_getElem?_getD, Nat.mul_zero, Nat.zero_add, h, Option.getD_some]

/-! ## The IV -/

theorem ivOfHex_eq_none_iff {text : List Char} : ivOfHex text = none ↔ ¬(IsHex text ∧ text.length = 32) := by
  unfold ivOfHex
  cases hbytes : hexBytes text with
  | none => exact iff_of_true rfl fun h => hexBytes_eq_none_iff.1 hbytes h.1
  | some bs =>
    have hhex : IsHex text := by
      by_contra hnot
      simp [hexBytes_eq_none_iff.2 hnot] at hbytes
    have hlen := hexBytes_length hbytes
    have hiff : text.length = 32 ↔ bs.length = 16 := by omega
    rw [and_iff_right hhex, hiff]
    simp

theorem optionalIv_eq_none_iff {hexIv : Option (List Char)} :
    optionalIv hexIv = none ↔ ∃ text, hexIv = some text ∧ ¬(IsHex text ∧ text.length = 32) := by
  cases hexIv with
  | none => simp [optionalIv]
  | some text => simp [optionalIv, ivOfHex_eq_none_iff]

theorem optionalIv_of_spells {text : List Char} {bs : List Byte} {iv : Block} (h : Spells text bs)
    (hlen : bs.length = 16) (hiv : ∀ r c : Fin 4, bs[4 * c.val + r.val]? = some (blockAt iv r c)) :
    optionalIv (some text) = some (some iv) := by
  simp [optionalIv, ivOfHex, hexBytes_of_spells h, hlen, blockFrom_zero_eq hiv]

/-! ## Calls -/

theorem messageOfHex_eq_invalidFormat_iff {dir : Dir} {mode : Mode} {hexIn hexKey : List Char}
    {hexIv : Option (List Char)} : messageOfHex dir mode hexIn hexKey hexIv = .error .invalidFormat ↔
      hexBytes hexIn = none ∨ hexBytes hexKey = none ∨ optionalIv hexIv = none := by
  unfold messageOfHex
  cases hexBytes hexIn with
  | none => simp
  | some input =>
    cases hexBytes hexKey with
    | none => simp
    | some key =>
      cases optionalIv hexIv with
      | none => simp
      | some iv =>
        refine iff_of_false ?_ (by simp)
        dsimp only
        split <;> nofun

theorem messageOfHex_of_bytes {dir : Dir} {mode : Mode} {hexIn hexKey : List Char} {hexIv : Option (List Char)}
    {input key : List Byte} {iv : Option Block} (hin : hexBytes hexIn = some input) (hkey : hexBytes hexKey = some key)
    (hiv : optionalIv hexIv = some iv) (hlen : input.length < 2 ^ 32) :
    messageOfHex dir mode hexIn hexKey hexIv = .ok (messageProgram dir mode input key iv) := by
  simp only [messageOfHex, hin, hkey, hiv]
  exact if_neg (Nat.not_le.2 hlen)

theorem expandKeyOfHex_eq_invalidFormat_iff {hexKey : List Char} :
    expandKeyOfHex hexKey = .error .invalidFormat ↔ hexBytes hexKey = none := by
  unfold expandKeyOfHex
  cases hexBytes hexKey <;> simp

/-- Settles O54: a text spells bytes exactly when it is whole bytes of hex, and then `hexBytes` answers them. -/
theorem driverRejectsMalformedText : Obligations.DriverRejectsMalformedText := by
  refine ⟨by decide, fun c hc => mem_alphabet_of_hexDigit hc, fun dir mode hexIn hexKey hexIv => ⟨?_, ?_, ?_, ?_⟩⟩
  · rw [messageOfHex_eq_invalidFormat_iff, hexBytes_eq_none_iff, hexBytes_eq_none_iff, optionalIv_eq_none_iff]
    rfl
  · intro input key hin hkey hlen
    refine ⟨?_, ?_⟩
    · rintro rfl
      exact messageOfHex_of_bytes (hexBytes_of_spells hin) (hexBytes_of_spells hkey) rfl hlen
    · rintro text bs iv rfl htext hbs hiv
      exact messageOfHex_of_bytes (hexBytes_of_spells hin) (hexBytes_of_spells hkey)
        (optionalIv_of_spells htext hbs hiv) hlen
  · rw [expandKeyOfHex_eq_invalidFormat_iff, hexBytes_eq_none_iff]
    rfl
  · intro key hkey
    rw [expandKeyOfHex, hexBytes_of_spells hkey]

end Sys2Proof.Machine

/-! # Host programs (30_encoding.md R102, R110, R111; 44_mode_controller.md R236)

`Runs` says of a piece of a host program that an idle core takes it from one state to another, whatever the host does
next; pieces run one after another. A message's program is its operand writes, MSG_START, and a round of writes,
MSG_BLOCK and reads for each block. -/

namespace Sys2Proof.Machine

/-! ## Pieces of a program -/

/-- The core is out of reset with no command in progress. -/
structure Idle (s : State) : Prop where
  rstN : s.rstN = true
  pending : s.pending = none

/-- From the idle state `s` the host's actions lead to the idle state `t`, whatever the host does after them. -/
def Runs (acts : List HostAction) (s t : State) : Prop :=
  Idle s → Idle t ∧ ∀ rest, Reaches (withInputs (acts ++ rest) s) (withInputs rest t)

theorem Runs.nil (s : State) : Runs [] s s := fun hs => ⟨hs, fun _ => .refl _⟩

theorem Runs.append {as bs : List HostAction} {s t u : State} (hst : Runs as s t) (htu : Runs bs t u) :
    Runs (as ++ bs) s u := by
  intro hs
  obtain ⟨ht, hfirst⟩ := hst hs
  obtain ⟨hu, hsecond⟩ := htu ht
  refine ⟨hu, fun rest => ?_⟩
  rw [List.append_assoc]
  exact (hfirst (bs ++ rest)).trans (hsecond rest)

theorem extractLsb'_offset (r : Reg) : (Reg.offset r).extractLsb' 0 2 = 0 := (aligned_iff.1 (aligned_offset r)).2

theorem writeReg_withInputs (r : Reg) (v : Word) (s : State) (l : List HostAction) :
    writeReg r v (withInputs l s) = withInputs l (writeReg r v s) := by
  cases r <;> rfl

theorem writeReg_idle {r : Reg} (hr : r ≠ .cmd) {s : State} (hs : Idle s) (v : Word) : Idle (writeReg r v s) := by
  have hcmd : regAt (Reg.offset r) ≠ some .cmd := fun h => hr (Option.some.inj ((regAt_offset r).symm.trans h))
  rw [← busWrite_offset]
  obtain ⟨hpending, -⟩ := busWrite_pending hcmd v s
  exact ⟨(busWrite_rstN _ v s).trans hs.rstN, hpending.trans hs.pending⟩

/-- `WR` of a register other than CMD (30_encoding.md R110). -/
theorem runs_wr {r : Reg} (hr : r ≠ .cmd) (v : Word) (s : State) : Runs [wr r v] s (writeReg r v s) := by
  intro hs
  refine ⟨writeReg_idle hr hs v, fun rest => .step ?_⟩
  have hstep := step_write_idle (s := withInputs ([wr r v] ++ rest) s) hs.rstN hs.pending (extractLsb'_offset r) rfl
  rw [busWrite_offset] at hstep
  rw [hstep]
  exact congrArg Host.Outcome.next (writeReg_withInputs r v s rest)

/-- `RD` (30_encoding.md R110). -/
theorem runs_rd (r : Reg) (s : State) : Runs [rd r] s (record (readReg r s) s) := by
  intro hs
  refine ⟨⟨hs.rstN, hs.pending⟩, fun rest => .step ?_⟩
  have hstep := step_read_idle (s := withInputs ([rd r] ++ rest) s) hs.rstN hs.pending (extractLsb'_offset r) rfl
  have hvalue : busRead (Reg.offset r) (withInputs ([rd r] ++ rest) s) = readReg r s :=
    (busRead_inputs (Reg.offset r) s _).trans (busRead_offset r s)
  rw [hvalue] at hstep
  exact hstep

/-- `DO` of a command: its completion on the state it was issued in (30_encoding.md R110, R111). -/
theorem runs_doCmd {i : Instr} (hwf : i.wf = true) {s t : State} (h : exec i (issue (encode i) s) = .next t) :
    Runs (doCmd i) s t := by
  intro hs
  have hcomplete : complete (encode i) (issue (encode i) s) = .next t :=
    (complete_ok (decode_eq_ok_iff.2 ⟨hwf, rfl⟩) _).trans h
  obtain ⟨u, hu, hframe⟩ := complete_next (encode i) (issue (encode i) s)
  obtain rfl : u = t := by simpa [hu] using hcomplete
  refine ⟨⟨hframe.rstN.trans hs.rstN, hframe.pending⟩, fun rest => ?_⟩
  exact reaches_polled (s := withInputs (doCmd i ++ rest) s) hs.rstN hs.pending rfl
    (complete_withTurns hu (issue (encode i) s).pending rest)

/-! ## Reads and writes of groups -/

theorem readReg_record (r : Reg) (v : Word) (s : State) : readReg r (record v s) = readReg r s := by
  cases r <;> rfl

/-- `s` with the values of several reads recorded. -/
def recordAll (vs : List Word) (s : State) : State := { s with reads := s.reads ++ vs }

theorem recordAll_nil (s : State) : recordAll [] s = s := by simp [recordAll]

theorem recordAll_cons (v : Word) (vs : List Word) (s : State) : recordAll (v :: vs) s = recordAll vs (record v s) := by
  simp [recordAll, record]

/-- Reads one after another record what each register holds. -/
theorem runs_reads (rs : List Reg) (s : State) : Runs (rs.map rd) s (recordAll (rs.map (readReg · s)) s) := by
  induction rs generalizing s with
  | nil => simpa [recordAll_nil] using Runs.nil s
  | cons r rs ih =>
    have hrest := ih (record (readReg r s) s)
    simp only [readReg_record] at hrest
    rw [List.map_cons, List.map_cons, recordAll_cons]
    exact (runs_rd r s).append hrest

/-- `WRBLK` (30_encoding.md R111). -/
theorem runs_wrBlk {name : Fin 4 → Reg} (hname : ∀ j, name j ≠ .cmd) (b : Block) (s : State) :
    Runs (wrBlk name b) s
      (writeReg (name 3) (quadOf b).w3 (writeReg (name 2) (quadOf b).w2
        (writeReg (name 1) (quadOf b).w1 (writeReg (name 0) (quadOf b).w0 s)))) :=
  (((runs_wr (hname 0) _ s).append (runs_wr (hname 1) _ _)).append (runs_wr (hname 2) _ _)).append
    (runs_wr (hname 3) _ _)

theorem runs_wrBlk_iv (b : Block) (s : State) : Runs (wrBlk .iv b) s { s with iv := quadOf b } :=
  runs_wrBlk (name := .iv) (fun _ => nofun) b s

theorem runs_wrBlk_din (b : Block) (s : State) : Runs (wrBlk .din b) s { s with din := quadOf b } :=
  runs_wrBlk (name := .din) (fun _ => nofun) b s

theorem runs_rdBlk_dout (s : State) :
    Runs (rdBlk .dout) s (recordAll [s.dout.w0, s.dout.w1, s.dout.w2, s.dout.w3] s) :=
  runs_reads [.dout 0, .dout 1, .dout 2, .dout 3] s

/-! ## WRKEY -/

/-- Writes of different key words leave each in its place and the others as they were. -/
theorem runs_keyWrites {js : List (Fin 8)} (hjs : js.Nodup) (ws : List Word) (s : State) :
    ∃ key : Vector Word 8, Runs (js.zipWith (fun j v => wr (.key j) v) ws) s { s with key := key } ∧
      (∀ j ∉ js, key[j] = s.key[j]) ∧ ∀ (k : Nat) (hk : k < js.length) (hw : k < ws.length), key[js[k]] = ws[k] := by
  induction js generalizing ws s with
  | nil => exact ⟨s.key, .nil s, fun _ _ => rfl, fun k hk => absurd hk (Nat.not_lt_zero k)⟩
  | cons j js ih =>
    cases ws with
    | nil => exact ⟨s.key, .nil s, fun _ _ => rfl, fun k _ hw => absurd hw (Nat.not_lt_zero k)⟩
    | cons w ws =>
      obtain ⟨hj, hnodup⟩ := List.nodup_cons.1 hjs
      obtain ⟨key, hruns, hother, hwritten⟩ := ih hnodup ws { s with key := s.key.set j w }
      have hfirst : key[j] = w := by simpa using hother j hj
      refine ⟨key, (runs_wr (r := .key j) nofun w s).append hruns, fun j' hj' => ?_, fun k hk hw => ?_⟩
      · obtain ⟨hne, hj'⟩ : j' ≠ j ∧ j' ∉ js := by simpa using hj'
        have hne : j.val ≠ j'.val := fun h => hne (Fin.ext h.symm)
        simpa [Vector.getElem_set_ne, hne] using hother j' hj'
      · cases k with
        | zero => exact hfirst
        | succ k => exact hwritten k (Nat.lt_of_succ_lt_succ hk) (Nat.lt_of_succ_lt_succ hw)

/-- A key whose words are written in order is the key the core reads (10_state.md R40). -/
theorem keyBytes_of_keyRegWords {reg : Vector Word 8} {key : List Byte} {nk : Nat} (hlen : key.length = 4 * nk)
    (hnk : nk ≤ 8) (hreg : ∀ j : Fin 8, (hj : j.val < (keyRegWords key).length) → reg[j] = (keyRegWords key)[j.val]) :
    keyBytes reg key.length = key := by
  have hcount : key.length / 4 = nk := by omega
  refine List.ext_getElem (by simp [keyBytes]) fun b hb hb' => ?_
  have hword : b / 4 < nk := by omega
  have hin : b / 4 < (keyRegWords key).length := by simpa [keyRegWords, keyWords, hcount] using hword
  have hread : reg[b / 4] = (keyRegWords key)[b / 4] := hreg ⟨b / 4, by omega⟩ hin
  have hbyte : 4 * (b / 4) + b % 4 = b := by omega
  have hcol (t : Col) : byteK (b % 4) (colWord t) = colAt t ⟨b % 4, by omega⟩ := byteK_colWord t ⟨b % 4, by omega⟩
  have hget : keyByte reg b = colAt (colFrom key (4 * (b / 4))) ⟨b % 4, by omega⟩ := by
    rw [keyByte, Vector.getElem?_eq_getElem (by omega), Option.getD_some, hread]
    simp only [keyRegWords, keyWords, List.getElem_map, List.getElem_range]
    exact hcol _
  simp only [keyBytes, List.getElem_map, List.getElem_range]
  rw [hget, colAt_colFrom, hbyte]
  simp [hb']

/-- No key length above 255 is accepted, and none becomes so by being written as 255 (30_encoding.md R111). -/
theorem variant_min (len : Nat) : variant (min len 255) = variant len := by
  rcases Nat.le_total len 255 with h | h
  · rw [Nat.min_eq_left h]
  · have hnone : variant len = none := variant_none_iff.2 ⟨by omega, by omega, by omega⟩
    rw [Nat.min_eq_right h, hnone]
    rfl

/-- `s` with a key in its registers. -/
def setKey (len : BitVec 8) (reg : Vector Word 8) (s : State) : State := { s with keyLen := len, key := reg }

/-- `WRKEY` leaves a length with the key's variant, and the key's bytes where there is one. -/
theorem runs_wrKey (key : List Byte) (s : State) : ∃ (len : BitVec 8) (reg : Vector Word 8),
    Runs (wrKey key) s (setKey len reg s) ∧ variant len.toNat = variant key.length ∧
      ∀ v, variant key.length = some v → keyBytes reg len.toNat = key := by
  have hlen : ((BitVec.ofNat 32 (min key.length 255)).setWidth 8).toNat = min key.length 255 := by
    rw [BitVec.toNat_setWidth, BitVec.toNat_ofNat]
    omega
  have hfirst := runs_wr (r := .keyLen) nofun (BitVec.ofNat 32 (min key.length 255)) s
  have hvariant := variant_min key.length
  rw [← hlen] at hvariant
  cases hv : variant key.length with
  | none =>
    refine ⟨_, s.key, ?_, hv ▸ hvariant, nofun⟩
    rw [wrKey, if_pos hv]
    exact hfirst
  | some v =>
    obtain ⟨nk, nr⟩ := v
    obtain ⟨hbytes, -, hnk, -⟩ := variant_bounds hv
    obtain ⟨reg, hruns, -, hwritten⟩ := runs_keyWrites (List.nodup_finRange 8) (keyRegWords key)
      (writeReg .keyLen (BitVec.ofNat 32 (min key.length 255)) s)
    have hmin : min key.length 255 = key.length := by omega
    refine ⟨_, reg, ?_, hv ▸ hvariant, fun _ _ => ?_⟩
    · rw [wrKey, if_neg (by simp [hv])]
      exact hfirst.append hruns
    · rw [hlen, hmin]
      refine keyBytes_of_keyRegWords hbytes hnk fun j hj => ?_
      simpa using hwritten j.val (by simp) hj

/-! ## The blocks of an input -/

theorem blocksOf_length {bs : List Byte} (h : bs.length % 16 = 0) : (blocksOf bs).length = bs.length / 16 := by
  simp [blocksOf, h]

/-- The blocks of an input are its bytes in order (20_memory.md R75). -/
theorem blocksOf_getElem? {bs : List Byte} (h : bs.length % 16 = 0) {j : Nat} (hj : j < bs.length / 16) (r c : Fin 4) :
    (blocksOf bs)[j]?.map (fun b => blockAt b r c) = bs[16 * j + 4 * c.val + r.val]? := by
  have hblock : (blocksOf bs)[j]? = some (blockFrom bs j) := by simp [blocksOf, h, hj]
  have hbyte : 16 * j + 4 * c.val + r.val < bs.length := by omega
  rw [hblock, Option.map_some, blockAt_blockFrom, List.getD_eq_getElem?_getD, List.getElem?_eq_getElem hbyte,
    Option.getD_some]

/-! ## A message's operands -/

/-- The host's part of a message's program that writes the operands. -/
def operandWrites (dir : Dir) (mode : Mode) (input key : List Byte) (iv : Option Block) : List HostAction :=
  wrKey key ++ [wr .msgLen (BitVec.ofNat 32 input.length), wr .ctrl (ctrlValue dir mode iv.isSome)] ++
    match iv with
    | some b => wrBlk .iv b
    | none => []

/-- The part that passes one block. -/
def blockActions (b : Block) : List HostAction := wrBlk .din b ++ doCmd .msgBlock ++ rdBlk .dout

theorem messageProgram_eq (dir : Dir) (mode : Mode) (input key : List Byte) (iv : Option Block) :
    messageProgram dir mode input key iv =
      operandWrites dir mode input key iv ++ doCmd .msgStart ++ (blocksToPass input key).flatMap blockActions := rfl

/-- The operand registers hold what a message is called with. -/
structure HasOperands (dir : Dir) (mode : Mode) (input key : List Byte) (iv : Option Block) (s : State) : Prop where
  msgLen : s.msgLen.toNat = input.length
  dir : ctrlDir s = dir
  mode : ctrlMode s = mode
  startVector : startVector s = iv.getD zeroBlock
  variant : variant s.keyLen.toNat = variant key.length
  key : ∀ v, Machine.variant key.length = some v → keyBytes s.key s.keyLen.toNat = key

/-- CTRL's bits are the direction, the mode and whether an IV is given (10_state.md R24). -/
theorem ctrl_of_ctrlValue {s : State} {dir : Dir} {mode : Mode} {ivGiven : Bool}
    (h : s.ctrl = (ctrlValue dir mode ivGiven).setWidth 3) :
    ctrlDir s = dir ∧ ctrlMode s = mode ∧ ctrlIvEn s = ivGiven := by
  simp only [ctrlDir, ctrlMode, ctrlIvEn, h]
  cases dir <;> cases mode <;> cases ivGiven <;> decide

theorem startVector_of_not_ivEn {s : State} (h : ctrlIvEn s = false) : startVector s = zeroBlock := by
  simp [startVector, h]

theorem startVector_of_ivEn {s : State} (h : ctrlIvEn s = true) : startVector s = blkOf s.iv := by
  simp [startVector, h]

theorem runs_operandWrites (dir : Dir) (mode : Mode) (input key : List Byte) (iv : Option Block)
    (hlen : input.length < 2 ^ 32) (s : State) : ∃ t, Runs (operandWrites dir mode input key iv) s t ∧
      HasOperands dir mode input key iv t ∧ t.reads = s.reads := by
  obtain ⟨len, reg, hkey, hvariant, hbytes⟩ := runs_wrKey key s
  have hmsgLen : (BitVec.ofNat 32 input.length).toNat = input.length := by
    rw [BitVec.toNat_ofNat, Nat.mod_eq_of_lt hlen]
  have hfirst := (hkey.append (runs_wr (r := .msgLen) nofun (BitVec.ofNat 32 input.length) _)).append
    (runs_wr (r := .ctrl) nofun (ctrlValue dir mode iv.isSome) _)
  rw [List.append_assoc] at hfirst
  cases iv with
  | none =>
    obtain ⟨hdir, hmode, hivEn⟩ := ctrl_of_ctrlValue (dir := dir) (mode := mode) (ivGiven := false)
      (s := { setKey len reg s with
        msgLen := BitVec.ofNat 32 input.length, ctrl := (ctrlValue dir mode false).setWidth 3 }) rfl
    exact ⟨_, hfirst.append (.nil _), ⟨hmsgLen, hdir, hmode, startVector_of_not_ivEn hivEn, hvariant, hbytes⟩, rfl⟩
  | some b =>
    obtain ⟨hdir, hmode, hivEn⟩ := ctrl_of_ctrlValue (dir := dir) (mode := mode) (ivGiven := true)
      (s := { setKey len reg s with
        msgLen := BitVec.ofNat 32 input.length, ctrl := (ctrlValue dir mode true).setWidth 3, iv := quadOf b }) rfl
    refine ⟨_, hfirst.append (runs_wrBlk_iv b _), ⟨hmsgLen, hdir, hmode, ?_, hvariant, hbytes⟩, rfl⟩
    exact (startVector_of_ivEn hivEn).trans (blkOf_quadOf b)

/-! ## A message's blocks -/

/-- The register words of a block, in order. -/
def quadWords (q : Quad) : List Word := [q.w0, q.w1, q.w2, q.w3]

/-- The state after a block has been written to DIN and passed. -/
def passedBlock (p : Block) (s : State) : State := passDin (issue (encode .msgBlock) { s with din := quadOf p })

/-- The state after its output has been read as well. -/
def passedAndRead (p : Block) (s : State) : State := recordAll (quadWords (passedBlock p s).dout) (passedBlock p s)

/-- One block through an open message: its output's words are read (44_mode_controller.md R236). -/
theorem runs_blockActions {s : State} (hm : s.msgActive = true) (p : Block) :
    Runs (blockActions p) s (passedAndRead p s) :=
  ((runs_wrBlk_din p s).append (runs_doCmd rfl (exec_msgBlock_open hm))).append (runs_rdBlk_dout _)

/-- DOUT and CV are those of the chaining rules for the block. -/
theorem passedAndRead_chains (p : Block) (s : State) :
    let r := passBlock (roundKey s.rk) (rounds s) s.msgDir s.msgMode (blkOf s.cv) p
    (passedAndRead p s).reads = s.reads ++ quadWords (quadOf r.out) ∧ blkOf (passedAndRead p s).cv = r.cv := by
  have hresult : dinResult (issue (encode .msgBlock) { s with din := quadOf p }) =
      passBlock (roundKey s.rk) (rounds s) s.msgDir s.msgMode (blkOf s.cv) p := dinResult_set_din s p
  simp [passedAndRead, passedBlock, recordAll, passDin_eq, hresult]

/-- The schedule, the direction and the mode of the open message are as they were. -/
theorem passedAndRead_message (p : Block) (s : State) :
    (passedAndRead p s).rk = s.rk ∧ rounds (passedAndRead p s) = rounds s ∧
      (passedAndRead p s).msgDir = s.msgDir ∧ (passedAndRead p s).msgMode = s.msgMode := by
  simp [passedAndRead, passedBlock, recordAll, passDin_eq, rounds]

/-- The message counts one block fewer, and no error is left. -/
theorem passedAndRead_counts (p : Block) (s : State) :
    (passedAndRead p s).blocksLeft = s.blocksLeft - 1 ∧
      (passedAndRead p s).msgActive = decide ((passedAndRead p s).blocksLeft ≠ 0) ∧ (passedAndRead p s).err = 0 :=
  ⟨rfl, rfl, rfl⟩

theorem blockWords_cons (b : Block) (bs : List Block) :
    blockWords (b :: bs) = quadWords (quadOf b) ++ blockWords bs := rfl

/-- The blocks' part of a message's program reads the outputs of the chaining rules, as long as BLOCKS_LEFT counts
the blocks. -/
theorem runs_blocks {s : State} {ps : List Block} (hcount : ps.length ≤ s.blocksLeft.toNat)
    (hm : s.msgActive = decide (s.blocksLeft ≠ 0)) (herr : s.err = 0) :
    ∃ t, Runs (ps.flatMap blockActions) s t ∧ t.err = 0 ∧
      t.reads = s.reads ++
        blockWords (chainBlocks (roundKey s.rk) (rounds s) s.msgDir s.msgMode (blkOf s.cv) ps) := by
  induction ps generalizing s with
  | nil => exact ⟨s, .nil s, herr, (List.append_nil _).symm⟩
  | cons p ps ih =>
    have hcount' : ps.length + 1 ≤ s.blocksLeft.toNat := hcount
    have hleft : s.blocksLeft ≠ 0 := by bv_omega
    have hfirst := runs_blockActions (hm.trans (decide_eq_true hleft)) p
    obtain ⟨hblocks, hopen, hnoerr⟩ := passedAndRead_counts p s
    have hfall : ps.length ≤ (passedAndRead p s).blocksLeft.toNat := by rw [hblocks]; bv_omega
    obtain ⟨t, hrest, hterr, hreads⟩ := ih hfall hopen hnoerr
    obtain ⟨hread, hcv⟩ := passedAndRead_chains p s
    obtain ⟨hrk, hrounds, hdir, hmode⟩ := passedAndRead_message p s
    refine ⟨t, hfirst.append hrest, hterr, ?_⟩
    rw [hreads, hread, hrk, hrounds, hdir, hmode, hcv, List.append_assoc, chainBlocks, blockWords_cons]

/-! ## Whole programs -/

/-- A program that runs from an idle state to its end. -/
theorem run_of_runs {acts : List HostAction} {s t : State} (h : Runs acts s t) (hr : s.rstN = true)
    (hp : s.pending = none) (hi : s.inputs = acts) :
    ∃ k u, Host.Core.run core k s = .next u ∧ u.inputs = [] ∧ u.pending = none ∧ u.err = t.err ∧ u.reads = t.reads := by
  obtain ⟨ht, hreach⟩ := h ⟨hr, hp⟩
  obtain ⟨k, hk⟩ := hreach []
  rw [List.append_nil, withInputs_self hi] at hk
  exact ⟨k, withInputs [] t, hk, rfl, ht.pending, rfl, rfl⟩

theorem HasOperands.issue {dir : Dir} {mode : Mode} {input key : List Byte} {iv : Option Block} {s : State}
    (h : HasOperands dir mode input key iv s) (w : Word) : HasOperands dir mode input key iv (issue w s) :=
  ⟨h.msgLen, h.dir, h.mode, h.startVector, h.variant, h.key⟩

theorem HasOperands.msgLenOk_iff {dir : Dir} {mode : Mode} {input key : List Byte} {iv : Option Block} {s : State}
    (h : HasOperands dir mode input key iv s) :
    msgLenOk s = true ↔ input.length ≠ 0 ∧ input.length % 16 = 0 := by
  have hzero : s.msgLen = 0 ↔ s.msgLen.toNat = 0 := BitVec.toNat_inj.symm
  rw [Machine.msgLenOk_iff, ne_eq, hzero, h.msgLen]

theorem startVector_expandAndStore (nk nr : Nat) (s : State) :
    startVector (expandAndStore nk nr s) = startVector s := by
  simp [startVector, ctrlIvEn, expandAndStore]

theorem msgBlocks_expandAndStore (nk nr : Nat) (s : State) : msgBlocks (expandAndStore nk nr s) = msgBlocks s := by
  simp [msgBlocks, expandAndStore]

/-- The state a message with an accepted key and input is open in. -/
structure Opened (dir : Dir) (mode : Mode) (input key : List Byte) (iv : Option Block) (nk nr : Nat) (s : State) :
    Prop where
  rk : s.rk = scheduleStore (keyExpansion key nk nr).1 nr
  rounds : rounds s = nr
  msgDir : s.msgDir = dir
  msgMode : s.msgMode = mode
  cv : blkOf s.cv = iv.getD zeroBlock
  blocksLeft : s.blocksLeft.toNat = input.length / 16
  msgActive : s.msgActive = decide (s.blocksLeft ≠ 0)
  err : s.err = 0

theorem opened_of_operands {dir : Dir} {mode : Mode} {input key : List Byte} {iv : Option Block} {s : State}
    {nk nr : Nat} (h : HasOperands dir mode input key iv s) (hok : msgLenOk s = true)
    (hv : variant key.length = some (nk, nr)) :
    Opened dir mode input key iv nk nr (succeed (openMessage (expandAndStore nk nr s))) := by
  obtain ⟨-, -, -, -, hnr⟩ := variant_bounds hv
  exact
    { rk := by simp [expandAndStore, h.key _ hv]
      rounds := Nat.mod_eq_of_lt (by omega)
      msgDir := h.dir
      msgMode := h.mode
      cv := by simp [startVector_expandAndStore, h.startVector]
      blocksLeft := by simp [msgBlocks_expandAndStore, msgBlocks_toNat, h.msgLen]
      msgActive := by simpa [msgBlocks_expandAndStore] using msgBlocks_ne_zero hok
      err := rfl }

/-- `DO MSG_START` with the operands of an accepted message. -/
theorem runs_msgStart {dir : Dir} {mode : Mode} {input key : List Byte} {iv : Option Block} {s : State} {nk nr : Nat}
    (h : HasOperands dir mode input key iv s) (hv : variant key.length = some (nk, nr)) (hpos : 0 < input.length)
    (hmod : input.length % 16 = 0) :
    ∃ t, Runs (doCmd .msgStart) s t ∧ Opened dir mode input key iv nk nr t ∧ t.reads = s.reads := by
  have hissued : HasOperands dir mode input key iv (issue (encode .msgStart) s) := h.issue _
  have hok : msgLenOk (issue (encode .msgStart) s) = true := hissued.msgLenOk_iff.2 ⟨by omega, hmod⟩
  have hstart := runs_doCmd rfl (exec_msgStart hok (hissued.variant.trans hv))
  exact ⟨_, hstart, opened_of_operands hissued hok hv, by simp [expandAndStore]⟩

theorem runs_messageProgram {dir : Dir} {mode : Mode} {input key : List Byte} {iv : Option Block} {nk nr : Nat}
    (hv : variant key.length = some (nk, nr)) (hpos : 0 < input.length) (hmod : input.length % 16 = 0)
    (hlen : input.length < 2 ^ 32) (s : State) : ∃ t, Runs (messageProgram dir mode input key iv) s t ∧ t.err = 0 ∧
      t.reads = s.reads ++ blockWords (chainBlocks (roundKey (scheduleStore (keyExpansion key nk nr).1 nr)) nr dir
        mode (iv.getD zeroBlock) (blocksOf input)) := by
  obtain ⟨a, hoperands, ha, hareads⟩ := runs_operandWrites dir mode input key iv hlen s
  obtain ⟨b, hstart, hb, hbreads⟩ := runs_msgStart ha hv hpos hmod
  have hcount : (blocksOf input).length ≤ b.blocksLeft.toNat := by rw [hb.blocksLeft, blocksOf_length hmod]
  obtain ⟨t, hpass, herr, hreads⟩ := runs_blocks hcount hb.msgActive hb.err
  have hblocksToPass : blocksToPass input key = blocksOf input := if_neg (by simp [hv])
  rw [messageProgram_eq, hblocksToPass]
  refine ⟨t, (hoperands.append hstart).append hpass, herr, ?_⟩
  rw [hreads, hbreads, hareads, hb.rk, hb.rounds, hb.msgDir, hb.msgMode, hb.cv]

theorem blocksToPass_of_rejected {input key : List Byte}
    (h : variant key.length = none ∨ input.length = 0 ∨ input.length % 16 ≠ 0) : blocksToPass input key = [] := by
  unfold blocksToPass blocksOf
  split
  · rfl
  · next hv =>
    split
    · next hmod =>
      have hzero : input.length = 0 := by
        rcases h with h | h | h
        · exact absurd h hv
        · exact h
        · exact absurd hmod h
      rw [hzero]
      rfl
    · rfl

theorem runs_rejectedMessage {dir : Dir} {mode : Mode} {input key : List Byte} {iv : Option Block}
    (hlen : input.length < 2 ^ 32) (h : variant key.length = none ∨ input.length = 0 ∨ input.length % 16 ≠ 0)
    (s : State) : ∃ t, Runs (messageProgram dir mode input key iv) s t ∧ t.reads = s.reads ∧
      t.err = if input.length = 0 ∨ input.length % 16 ≠ 0 then 1 else 2 := by
  obtain ⟨a, hoperands, ha, hreads⟩ := runs_operandWrites dir mode input key iv hlen s
  have hissued : HasOperands dir mode input key iv (issue (encode .msgStart) a) := ha.issue _
  rw [messageProgram_eq, blocksToPass_of_rejected h]
  by_cases hbad : input.length = 0 ∨ input.length % 16 ≠ 0
  · have hnot : ¬msgLenOk (issue (encode .msgStart) a) = true := by
      rw [hissued.msgLenOk_iff]
      tauto
    exact ⟨_, (hoperands.append (runs_doCmd rfl (exec_msgStart_badLength hnot))).append (.nil _), hreads,
      (if_pos hbad).symm⟩
  · have hok : msgLenOk (issue (encode .msgStart) a) = true := by
      rw [hissued.msgLenOk_iff]
      tauto
    have hv : variant key.length = none := h.resolve_right hbad
    exact ⟨_, (hoperands.append (runs_doCmd rfl (exec_msgStart_badKey hok (hissued.variant.trans hv)))).append (.nil _),
      hreads, (if_neg hbad).symm⟩

/-! ## expand_key -/

/-- The store's first words are the schedule's (42_key_schedule.md R171). -/
theorem map_scheduleStore {w : List Col} {nr : Nat} (hw : w.length = 4 * (nr + 1)) (hnr : nr ≤ 14) :
    ((List.finRange 60).take (4 * (nr + 1))).map (fun i => (scheduleStore w nr)[i]) = w.map colWord := by
  refine List.ext_getElem (by simp; omega) fun i hi hi' => ?_
  have hlt : i < 4 * (nr + 1) := by simp only [List.length_map] at hi'; omega
  have hstore := scheduleStore_getElem w nr ⟨i, by omega⟩
  rw [if_pos hlt] at hstore
  simpa [List.getElem?_eq_getElem (show i < w.length by omega)] using hstore

theorem expandKeyProgram_eq {key : List Byte} {nk nr : Nat} (hv : variant key.length = some (nk, nr)) :
    expandKeyProgram key =
      wrKey key ++ doCmd .expandKey ++ (((List.finRange 60).take (4 * (nr + 1))).map Reg.rk).map rd := by
  rw [expandKeyProgram, hv, List.map_map]
  rfl

theorem runs_expandKeyProgram {key : List Byte} {nk nr : Nat} (hv : variant key.length = some (nk, nr)) (s : State) :
    ∃ t, Runs (expandKeyProgram key) s t ∧ t.err = 0 ∧ t.reads = s.reads ++ (keyExpansion key nk nr).1.map colWord := by
  obtain ⟨len, reg, hkey, hvariant, hbytes⟩ := runs_wrKey key s
  obtain ⟨-, hk, -, hn, hnr⟩ := variant_bounds hv
  have hexpand := runs_doCmd (s := setKey len reg s) rfl (exec_expandKey (hvariant.trans hv))
  have hread := (hkey.append hexpand).append
    (runs_reads (((List.finRange 60).take (4 * (nr + 1))).map Reg.rk) _)
  refine ⟨_, expandKeyProgram_eq hv ▸ hread, rfl, ?_⟩
  have hwords : keyBytes reg len.toNat = key := hbytes _ hv
  have hstore := map_scheduleStore (keyExpansion_length (keyBytes reg len.toNat) hk hn) hnr
  rw [← hwords, ← hstore, List.map_map]
  rfl

theorem runs_rejectedExpandKey {key : List Byte} (hv : variant key.length = none) (s : State) :
    ∃ t, Runs (expandKeyProgram key) s t ∧ t.err = 2 ∧ t.reads = s.reads := by
  obtain ⟨len, reg, hkey, hvariant, -⟩ := runs_wrKey key s
  have hexpand := runs_doCmd (s := setKey len reg s) rfl (exec_expandKey_badKey (hvariant.trans hv))
  have hprogram : expandKeyProgram key = wrKey key ++ doCmd .expandKey := by simp [expandKeyProgram, hv]
  rw [hprogram]
  exact ⟨_, hkey.append hexpand, rfl, rfl⟩

/-- Settles O34: each program is pieces that run one after another. -/
theorem messageProgramReadsTheChainedBlocks : Obligations.MessageProgramReadsTheChainedBlocks := by
  refine ⟨fun bs h => ⟨blocksOf_length h, fun j r c hj => blocksOf_getElem? h hj r c⟩,
    fun s dir mode input key iv nk nr hr hp hi hv hpos hmod hlen => ?_,
    fun s dir mode input key iv hr hp hi hlen h => ?_, fun s key hr hp hi => ?_⟩
  · obtain ⟨t, hruns, herr, hreads⟩ := runs_messageProgram hv hpos hmod hlen s
    obtain ⟨k, u, hk, hinputs, hpending, huerr, hureads⟩ := run_of_runs hruns hr hp hi
    exact ⟨k, u, hk, hinputs, hpending, huerr.trans herr, hureads.trans hreads⟩
  · obtain ⟨t, hruns, hreads, herr⟩ := runs_rejectedMessage hlen h s
    obtain ⟨k, u, hk, hinputs, hpending, huerr, hureads⟩ := run_of_runs hruns hr hp hi
    exact ⟨k, u, hk, hinputs, hpending, hureads.trans hreads, huerr.trans herr⟩
  · cases hv : variant key.length with
    | none =>
      obtain ⟨t, hruns, herr, hreads⟩ := runs_rejectedExpandKey hv s
      obtain ⟨k, u, hk, hinputs, hpending, huerr, hureads⟩ := run_of_runs hruns hr hp hi
      exact ⟨k, u, hk, hinputs, hpending, nofun, fun _ => ⟨huerr.trans herr, hureads.trans hreads⟩⟩
    | some v =>
      obtain ⟨t, hruns, herr, hreads⟩ := runs_expandKeyProgram hv s
      obtain ⟨k, u, hk, hinputs, hpending, huerr, hureads⟩ := run_of_runs hruns hr hp hi
      refine ⟨k, u, hk, hinputs, hpending, ?_, nofun⟩
      rintro nk nr ⟨⟩
      exact ⟨huerr.trans herr, hureads.trans hreads⟩

end Sys2Proof.Machine
